-- ==== Sys2Proof/Word.lean ====
section
/-! DEFINITION. The two word types of the block: 8-bit bytes and 16-bit words (00_scope.md R7, R8). -/

namespace Sys2Proof

/-- An 8-bit value: a byte of memory, an 8-bit register, an immediate `n`, a displacement `d`, an offset `e`. -/
abbrev Byte := BitVec 8

/-- A 16-bit value: an address, a register pair, PC, SP, an immediate `nn`. Its arithmetic wraps modulo 65536. -/
abbrev Word := BitVec 16

end Sys2Proof
end

