-- ==== Sys2Proof/Config.lean ====
section
/-! DEFINITION. The construction parameters of the block (00_scope.md R7) and the one free value of the model. -/

namespace Sys2Proof

/-- The device behind the I/O port (20_memory.md R80 to R82, decision D24). -/
inductive Device where
  /-- The default device: every read gives `0x00`, every write is discarded (R82). -/
  | null
  /-- A device the host supplied: every read gives a value the spec does not give (`Config.ioDraw`). -/
  | replaced
  deriving DecidableEq, Repr

/-- The parameters fixed at construction (R7). A machine carries them unchanged from its construction on. -/
structure Config where
  /-- `RAM_SIZE`, the number of bytes of memory, 2 to 65536. -/
  ramSize : Nat
  /-- `INITIAL_PC`, the value of PC after reset. -/
  initialPc : Word
  /-- `IoDevice`. -/
  device : Device
  deriving DecidableEq, Repr

/-- R7: `RAM_SIZE` is an integer, 2 to 65536 (the other two parameters have no constraint). -/
def Config.valid (c : Config) : Bool := 2 ≤ c.ramSize && c.ramSize ≤ 65536

/-- The parameters of every example of the spec: `RAM_SIZE = 0x10000`, `INITIAL_PC = 0x0100`, the default device.
DESIGN CHOICE for the first two (log 1, 2), unsafe: R7 leaves them open. -/
def Config.standard : Config := { ramSize := 0x10000, initialPc := 0x0100, device := .null }

/-- `CPM_STUB` is `false` in this spec (10_state.md R38, decision D2): the stub is outside the block (log 5). -/
def Config.cpmStub : Bool := false

/-- FREE VALUE (log 3): the byte a replaced device returns on its k-th I/O call. R82 and D24 make it "any byte"; it
has no body, so nothing can be proved of it. -/
opaque Config.ioDraw : Nat → Byte

end Sys2Proof
end

