-- ==== Sys2Proof/Syntax.lean ====
section
/-! DEFINITION. The instructions of the block: operand tables and one constructor per row of the opcode table. -/

namespace Sys2Proof

/-- The plain 8-bit registers `r8[i]`, `i != 6` (30_encoding.md R91). -/
inductive Reg8 where
  | b | c | d | e | h | l | a
  deriving DecidableEq, Repr

/-- The index register a `DD` (IX) or `FD` (IY) byte selects (R93); the table's field `i`. -/
inductive IdxReg where
  | ix | iy
  deriving DecidableEq, Repr

/-- A half of an index register: IXH or IYH (`hi`), IXL or IYL (`lo`) (R92, rows 4 and 5). -/
inductive Half where
  | hi | lo
  deriving DecidableEq, Repr

/-- The prefix-mapped registers `x8[i]`, `i != 6`, with a prefix in force (R92): B C D E, the two halves, A. -/
inductive RegX where
  | b | c | d | e | hi | lo | a
  deriving DecidableEq, Repr

/-- The 16-bit registers `ss[p]`, and `rr[p]` with no prefix in force (R95). -/
inductive Pair where
  | bc | de | hl | sp
  deriving DecidableEq, Repr

/-- The 16-bit registers `rr[p]` with a prefix in force: slot 2 is the index register itself (R95). -/
inductive PairX where
  | bc | de | idx | sp
  deriving DecidableEq, Repr

/-- The 16-bit registers `qq[p]` of PUSH and POP with no prefix in force (R96). -/
inductive PairQ where
  | bc | de | hl | af
  deriving DecidableEq, Repr

/-- The 3-bit conditions (R97). -/
inductive Cond where
  | nz | z | nc | c | po | pe | p | m
  deriving DecidableEq, Repr

/-- The 2-bit conditions of `JR cc` (R97, 47_control_flow.md R344). -/
inductive CondShort where
  | nz | z | nc | c
  deriving DecidableEq, Repr

/-- The prefix latch (10_state.md R35). -/
inductive Latch where
  | none | dd | fd
  deriving DecidableEq, Repr

/-- A 3-bit instruction field used as a number: a bit number `b`, or the field `t` of `RST p`. -/
abbrev Field3 := BitVec 3

/-- One constructor per row of spec/opcode_table.json, in the table's order. `nn` is a 16-bit immediate, `n` an 8-bit
one, `d` a displacement, `e` a relative offset. The rows `(DD prefix)`, `(FD prefix)` and the three escapes are decoder
rows: bytes that begin an instruction and are none by themselves (log 15). -/
inductive Instr where
  /-- `NOP`, 49_io_misc.md R392. -/
  | nop
  /-- `LD rr,nn`, 43_load16_exchange_stack.md R220. -/
  | ldRrNn (p : Pair) (nn : Word)
  /-- `LD (BC),A`, 42_load8.md R207. -/
  | ldMemBcA
  /-- `LD (DE),A`, 42_load8.md R208. -/
  | ldMemDeA
  /-- `LD A,(BC)`, 42_load8.md R205. -/
  | ldAMemBc
  /-- `LD A,(DE)`, 42_load8.md R206. -/
  | ldAMemDe
  /-- `INC rr`, 45_alu16.md R293. -/
  | incRr (p : Pair)
  /-- `DEC rr`, 45_alu16.md R294. -/
  | decRr (p : Pair)
  /-- `ADD HL,rr`, 45_alu16.md R290. -/
  | addHlRr (p : Pair)
  /-- `INC r`, 44_alu8.md R260. -/
  | incR (r : Reg8)
  /-- `INC (HL)`, 44_alu8.md R260. -/
  | incMemHl
  /-- `DEC r`, 44_alu8.md R261. -/
  | decR (r : Reg8)
  /-- `DEC (HL)`, 44_alu8.md R261. -/
  | decMemHl
  /-- `LD r,n`, 42_load8.md R203. -/
  | ldRN (r : Reg8) (n : Byte)
  /-- `LD (HL),n`, 42_load8.md R204. -/
  | ldMemHlN (n : Byte)
  /-- `RLCA`, 46_rotate_shift_bit.md R300. -/
  | rlca
  /-- `RRCA`, 46_rotate_shift_bit.md R301. -/
  | rrca
  /-- `RLA`, 46_rotate_shift_bit.md R302. -/
  | rla
  /-- `RRA`, 46_rotate_shift_bit.md R303. -/
  | rra
  /-- `EX AF,AF'`, 43_load16_exchange_stack.md R230. -/
  | exAfAf
  /-- `DJNZ e`, 47_control_flow.md R345. -/
  | djnz (e : Byte)
  /-- `JR e`, 47_control_flow.md R343. -/
  | jr (e : Byte)
  /-- `JR cc,e`, 47_control_flow.md R344. -/
  | jrCc (cc : CondShort) (e : Byte)
  /-- `LD (nn),HL`, 43_load16_exchange_stack.md R222. -/
  | ldMemNnHl (nn : Word)
  /-- `LD HL,(nn)`, 43_load16_exchange_stack.md R221. -/
  | ldHlMemNn (nn : Word)
  /-- `LD (nn),A`, 42_load8.md R210. -/
  | ldMemNnA (nn : Word)
  /-- `LD A,(nn)`, 42_load8.md R209. -/
  | ldAMemNn (nn : Word)
  /-- `DAA`, 44_alu8.md R270. -/
  | daa
  /-- `CPL`, 44_alu8.md R271. -/
  | cpl
  /-- `SCF`, 44_alu8.md R273. -/
  | scf
  /-- `CCF`, 44_alu8.md R274. -/
  | ccf
  /-- `LD r,r'`, 42_load8.md R200. -/
  | ldRR (r : Reg8) (r' : Reg8)
  /-- `LD r,(HL)`, 42_load8.md R201. -/
  | ldRMemHl (r : Reg8)
  /-- `LD (HL),r`, 42_load8.md R202. -/
  | ldMemHlR (r : Reg8)
  /-- `HALT`, 49_io_misc.md R393. -/
  | halt
  /-- `ADD A,r`, 44_alu8.md R250. -/
  | addAR (r : Reg8)
  /-- `ADD A,(HL)`, 44_alu8.md R250. -/
  | addAMemHl
  /-- `ADD A,n`, 44_alu8.md R250. -/
  | addAN (n : Byte)
  /-- `ADC A,r`, 44_alu8.md R251. -/
  | adcAR (r : Reg8)
  /-- `ADC A,(HL)`, 44_alu8.md R251. -/
  | adcAMemHl
  /-- `ADC A,n`, 44_alu8.md R251. -/
  | adcAN (n : Byte)
  /-- `SUB r`, 44_alu8.md R252. -/
  | subR (r : Reg8)
  /-- `SUB (HL)`, 44_alu8.md R252. -/
  | subMemHl
  /-- `SUB n`, 44_alu8.md R252. -/
  | subN (n : Byte)
  /-- `SBC A,r`, 44_alu8.md R253. -/
  | sbcAR (r : Reg8)
  /-- `SBC A,(HL)`, 44_alu8.md R253. -/
  | sbcAMemHl
  /-- `SBC A,n`, 44_alu8.md R253. -/
  | sbcAN (n : Byte)
  /-- `AND r`, 44_alu8.md R254. -/
  | andR (r : Reg8)
  /-- `AND (HL)`, 44_alu8.md R254. -/
  | andMemHl
  /-- `AND n`, 44_alu8.md R254. -/
  | andN (n : Byte)
  /-- `XOR r`, 44_alu8.md R255. -/
  | xorR (r : Reg8)
  /-- `XOR (HL)`, 44_alu8.md R255. -/
  | xorMemHl
  /-- `XOR n`, 44_alu8.md R255. -/
  | xorN (n : Byte)
  /-- `OR r`, 44_alu8.md R256. -/
  | orR (r : Reg8)
  /-- `OR (HL)`, 44_alu8.md R256. -/
  | orMemHl
  /-- `OR n`, 44_alu8.md R256. -/
  | orN (n : Byte)
  /-- `CP r`, 44_alu8.md R257. -/
  | cpR (r : Reg8)
  /-- `CP (HL)`, 44_alu8.md R257. -/
  | cpMemHl
  /-- `CP n`, 44_alu8.md R257. -/
  | cpN (n : Byte)
  /-- `RET cc`, 47_control_flow.md R351. -/
  | retCc (cc : Cond)
  /-- `POP qq`, 43_load16_exchange_stack.md R243. -/
  | popQq (q : PairQ)
  /-- `JP cc,nn`, 47_control_flow.md R341. -/
  | jpCcNn (cc : Cond) (nn : Word)
  /-- `JP nn`, 47_control_flow.md R340. -/
  | jpNn (nn : Word)
  /-- `CALL cc,nn`, 47_control_flow.md R349. -/
  | callCcNn (cc : Cond) (nn : Word)
  /-- `PUSH qq`, 43_load16_exchange_stack.md R242. -/
  | pushQq (q : PairQ)
  /-- `RST 0`, 47_control_flow.md R352. -/
  | rst0
  /-- `RST p (p != 0): UnimplementedOpcode`, 47_control_flow.md R353. -/
  | rstP (y : Field3)
  /-- `RET`, 47_control_flow.md R350. -/
  | ret
  /-- `(CB escape)`, 46_rotate_shift_bit.md R305. -/
  | cbEscape
  /-- `CALL nn`, 47_control_flow.md R348. -/
  | callNn (nn : Word)
  /-- `OUT (n),A`, 49_io_misc.md R391. -/
  | outNA (n : Byte)
  /-- `EXX`, 43_load16_exchange_stack.md R231. -/
  | exx
  /-- `IN A,(n)`, 49_io_misc.md R390. -/
  | inAN (n : Byte)
  /-- `(DD prefix)`, 40_instruction_cycle.md R134. -/
  | ddPrefix
  /-- `EX (SP),HL`, 43_load16_exchange_stack.md R233. -/
  | exMemSpHl
  /-- `JP (HL)`, 47_control_flow.md R342. -/
  | jpHl
  /-- `EX DE,HL`, 43_load16_exchange_stack.md R232. -/
  | exDeHl
  /-- `(ED escape)`, 30_encoding.md R120. -/
  | edEscape
  /-- `DI`, 49_io_misc.md R394. -/
  | di
  /-- `LD SP,HL`, 43_load16_exchange_stack.md R227. -/
  | ldSpHl
  /-- `EI`, 49_io_misc.md R395. -/
  | ei
  /-- `(FD prefix)`, 40_instruction_cycle.md R134. -/
  | fdPrefix
  /-- `ADD IX,rr`, 45_alu16.md R290. -/
  | addIxRr (j : IdxReg) (p : PairX)
  /-- `LD IX,nn`, 43_load16_exchange_stack.md R220. -/
  | ldIxNn (j : IdxReg) (nn : Word)
  /-- `LD (nn),IX`, 43_load16_exchange_stack.md R222. -/
  | ldMemNnIx (j : IdxReg) (nn : Word)
  /-- `INC IX`, 45_alu16.md R293. -/
  | incIx (j : IdxReg)
  /-- `LD IX,(nn)`, 43_load16_exchange_stack.md R221. -/
  | ldIxMemNn (j : IdxReg) (nn : Word)
  /-- `DEC IX`, 45_alu16.md R294. -/
  | decIx (j : IdxReg)
  /-- `INC IXH/IXL`, 44_alu8.md R260. -/
  | incIxHalf (j : IdxReg) (h : Half)
  /-- `DEC IXH/IXL`, 44_alu8.md R261. -/
  | decIxHalf (j : IdxReg) (h : Half)
  /-- `LD IXH/IXL,n`, 42_load8.md R203. -/
  | ldIxHalfN (j : IdxReg) (h : Half) (n : Byte)
  /-- `INC (IX+d)`, 44_alu8.md R260. -/
  | incMemIx (j : IdxReg) (d : Byte)
  /-- `DEC (IX+d)`, 44_alu8.md R261. -/
  | decMemIx (j : IdxReg) (d : Byte)
  /-- `LD (IX+d),n`, 42_load8.md R204. -/
  | ldMemIxN (j : IdxReg) (d : Byte) (n : Byte)
  /-- `LD x,x' (x: B C D E IXH IXL A)`, 42_load8.md R200. -/
  | ldXX (j : IdxReg) (x : RegX) (x' : RegX)
  /-- `LD r,(IX+d)`, 42_load8.md R201. -/
  | ldRMemIx (j : IdxReg) (r : Reg8) (d : Byte)
  /-- `LD (IX+d),r`, 42_load8.md R202. -/
  | ldMemIxR (j : IdxReg) (d : Byte) (r : Reg8)
  /-- `ADD A,IXH/IXL`, 44_alu8.md R250. -/
  | addAIxHalf (j : IdxReg) (h : Half)
  /-- `ADD A,(IX+d)`, 44_alu8.md R250. -/
  | addAMemIx (j : IdxReg) (d : Byte)
  /-- `ADC A,IXH/IXL`, 44_alu8.md R251. -/
  | adcAIxHalf (j : IdxReg) (h : Half)
  /-- `ADC A,(IX+d)`, 44_alu8.md R251. -/
  | adcAMemIx (j : IdxReg) (d : Byte)
  /-- `SUB IXH/IXL`, 44_alu8.md R252. -/
  | subIxHalf (j : IdxReg) (h : Half)
  /-- `SUB (IX+d)`, 44_alu8.md R252. -/
  | subMemIx (j : IdxReg) (d : Byte)
  /-- `SBC A,IXH/IXL`, 44_alu8.md R253. -/
  | sbcAIxHalf (j : IdxReg) (h : Half)
  /-- `SBC A,(IX+d)`, 44_alu8.md R253. -/
  | sbcAMemIx (j : IdxReg) (d : Byte)
  /-- `AND IXH/IXL`, 44_alu8.md R254. -/
  | andIxHalf (j : IdxReg) (h : Half)
  /-- `AND (IX+d)`, 44_alu8.md R254. -/
  | andMemIx (j : IdxReg) (d : Byte)
  /-- `XOR IXH/IXL`, 44_alu8.md R255. -/
  | xorIxHalf (j : IdxReg) (h : Half)
  /-- `XOR (IX+d)`, 44_alu8.md R255. -/
  | xorMemIx (j : IdxReg) (d : Byte)
  /-- `OR IXH/IXL`, 44_alu8.md R256. -/
  | orIxHalf (j : IdxReg) (h : Half)
  /-- `OR (IX+d)`, 44_alu8.md R256. -/
  | orMemIx (j : IdxReg) (d : Byte)
  /-- `CP IXH/IXL`, 44_alu8.md R257. -/
  | cpIxHalf (j : IdxReg) (h : Half)
  /-- `CP (IX+d)`, 44_alu8.md R257. -/
  | cpMemIx (j : IdxReg) (d : Byte)
  /-- `(CB escape, indexed)`, 46_rotate_shift_bit.md R306. -/
  | cbEscapeIndexed (j : IdxReg)
  /-- `POP IX`, 43_load16_exchange_stack.md R243. -/
  | popIx (j : IdxReg)
  /-- `EX (SP),IX`, 43_load16_exchange_stack.md R233. -/
  | exMemSpIx (j : IdxReg)
  /-- `PUSH IX`, 43_load16_exchange_stack.md R242. -/
  | pushIx (j : IdxReg)
  /-- `JP (IX)`, 47_control_flow.md R342. -/
  | jpIx (j : IdxReg)
  /-- `LD SP,IX`, 43_load16_exchange_stack.md R227. -/
  | ldSpIx (j : IdxReg)
  /-- `(prefix discarded: opcode not in dd_fd_prefixable, including DD, FD handled by absorption)`, 40_instruction_cycle.md R135. -/
  | prefixDiscarded (j : IdxReg) (op : Byte)
  /-- `RLC r`, 46_rotate_shift_bit.md R310. -/
  | rlcR (r : Reg8)
  /-- `RLC (HL)`, 46_rotate_shift_bit.md R310. -/
  | rlcMemHl
  /-- `RRC r`, 46_rotate_shift_bit.md R311. -/
  | rrcR (r : Reg8)
  /-- `RRC (HL)`, 46_rotate_shift_bit.md R311. -/
  | rrcMemHl
  /-- `RL r`, 46_rotate_shift_bit.md R312. -/
  | rlR (r : Reg8)
  /-- `RL (HL)`, 46_rotate_shift_bit.md R312. -/
  | rlMemHl
  /-- `RR r`, 46_rotate_shift_bit.md R313. -/
  | rrR (r : Reg8)
  /-- `RR (HL)`, 46_rotate_shift_bit.md R313. -/
  | rrMemHl
  /-- `SLA r`, 46_rotate_shift_bit.md R314. -/
  | slaR (r : Reg8)
  /-- `SLA (HL)`, 46_rotate_shift_bit.md R314. -/
  | slaMemHl
  /-- `SRA r`, 46_rotate_shift_bit.md R315. -/
  | sraR (r : Reg8)
  /-- `SRA (HL)`, 46_rotate_shift_bit.md R315. -/
  | sraMemHl
  /-- `SLL r`, 46_rotate_shift_bit.md R316. -/
  | sllR (r : Reg8)
  /-- `SLL (HL)`, 46_rotate_shift_bit.md R316. -/
  | sllMemHl
  /-- `SRL r`, 46_rotate_shift_bit.md R317. -/
  | srlR (r : Reg8)
  /-- `SRL (HL)`, 46_rotate_shift_bit.md R317. -/
  | srlMemHl
  /-- `BIT b,r`, 46_rotate_shift_bit.md R320. -/
  | bitR (b : Field3) (r : Reg8)
  /-- `BIT b,(HL)`, 46_rotate_shift_bit.md R320. -/
  | bitMemHl (b : Field3)
  /-- `RES b,r`, 46_rotate_shift_bit.md R321. -/
  | resR (b : Field3) (r : Reg8)
  /-- `RES b,(HL)`, 46_rotate_shift_bit.md R321. -/
  | resMemHl (b : Field3)
  /-- `SET b,r`, 46_rotate_shift_bit.md R322. -/
  | setR (b : Field3) (r : Reg8)
  /-- `SET b,(HL)`, 46_rotate_shift_bit.md R322. -/
  | setMemHl (b : Field3)
  /-- `RLC (IX+d)`, 46_rotate_shift_bit.md R310. -/
  | rlcMemIx (j : IdxReg) (d : Byte)
  /-- `RRC (IX+d)`, 46_rotate_shift_bit.md R311. -/
  | rrcMemIx (j : IdxReg) (d : Byte)
  /-- `RL (IX+d)`, 46_rotate_shift_bit.md R312. -/
  | rlMemIx (j : IdxReg) (d : Byte)
  /-- `RR (IX+d)`, 46_rotate_shift_bit.md R313. -/
  | rrMemIx (j : IdxReg) (d : Byte)
  /-- `SLA (IX+d)`, 46_rotate_shift_bit.md R314. -/
  | slaMemIx (j : IdxReg) (d : Byte)
  /-- `SRA (IX+d)`, 46_rotate_shift_bit.md R315. -/
  | sraMemIx (j : IdxReg) (d : Byte)
  /-- `SLL (IX+d)`, 46_rotate_shift_bit.md R316. -/
  | sllMemIx (j : IdxReg) (d : Byte)
  /-- `SRL (IX+d)`, 46_rotate_shift_bit.md R317. -/
  | srlMemIx (j : IdxReg) (d : Byte)
  /-- `BIT b,(IX+d)`, 46_rotate_shift_bit.md R320. -/
  | bitMemIx (b : Field3) (j : IdxReg) (d : Byte)
  /-- `RES b,(IX+d)`, 46_rotate_shift_bit.md R321. -/
  | resMemIx (b : Field3) (j : IdxReg) (d : Byte)
  /-- `SET b,(IX+d)`, 46_rotate_shift_bit.md R322. -/
  | setMemIx (b : Field3) (j : IdxReg) (d : Byte)
  /-- `(indexed CB with z != 6): UnimplementedOpcode`, 30_encoding.md R124. -/
  | idxCbOther (j : IdxReg) (d : Byte) (op : Byte)
  /-- `SBC HL,rr`, 45_alu16.md R292. -/
  | sbcHlRr (p : Pair)
  /-- `ADC HL,rr`, 45_alu16.md R291. -/
  | adcHlRr (p : Pair)
  /-- `LD (nn),rr`, 43_load16_exchange_stack.md R224. -/
  | ldMemNnRr (p : Pair) (nn : Word)
  /-- `LD rr,(nn)`, 43_load16_exchange_stack.md R223. -/
  | ldRrMemNn (p : Pair) (nn : Word)
  /-- `NEG`, 44_alu8.md R272. -/
  | neg
  /-- `LD A,I`, 42_load8.md R211. -/
  | ldAI
  /-- `RRD`, 46_rotate_shift_bit.md R331. -/
  | rrd
  /-- `RLD`, 46_rotate_shift_bit.md R330. -/
  | rld
  /-- `LDI`, 48_block.md R371. -/
  | ldi
  /-- `CPI`, 48_block.md R375. -/
  | cpi
  /-- `LDD`, 48_block.md R372. -/
  | ldd
  /-- `CPD`, 48_block.md R376. -/
  | cpd
  /-- `LDIR`, 48_block.md R373. -/
  | ldir
  /-- `CPIR`, 48_block.md R377. -/
  | cpir
  /-- `LDDR`, 48_block.md R374. -/
  | lddr
  /-- `CPDR`, 48_block.md R378. -/
  | cpdr
  /-- `(any other ED opcode): UnimplementedOpcode`, 30_encoding.md R123. -/
  | edOther (op : Byte)
  deriving DecidableEq, Repr

end Sys2Proof
end

