-- ==== Sys2Proof/Decode.lean ====
section
/-! DEFINITION. The decoder (30_encoding.md R90 to R126), total on any bytes, and after it the encoder. -/

namespace Sys2Proof

/-! ## Byte order -/

/-- A 16-bit value from its two bytes in memory order: the byte at the lower address is the low byte (20_memory.md R69). -/
def joinBytes (lo hi : Byte) : Word := hi ++ lo

/-- `hi(w) = w[15:8]` (00_scope.md R9). -/
def hiByte (w : Word) : Byte := w.extractLsb' 8 8

/-- `lo(w) = w[7:0]` (00_scope.md R9). -/
def loByte (w : Word) : Byte := w.extractLsb' 0 8

/-! ## Fields of an opcode byte (R98) -/

/-- `x = op[7:6]`. -/
def fieldX (op : Byte) : Nat := (op.extractLsb' 6 2).toNat
/-- `y = op[5:3]`, as the 3-bit field. -/
def field3Y (op : Byte) : Field3 := op.extractLsb' 3 3
/-- `y = op[5:3]`. -/
def fieldY (op : Byte) : Nat := (op.extractLsb' 3 3).toNat
/-- `z = op[2:0]`. -/
def fieldZ (op : Byte) : Nat := (op.extractLsb' 0 3).toNat
/-- `p = op[5:4]`. -/
def fieldP (op : Byte) : Nat := (op.extractLsb' 4 2).toNat
/-- `q = op[3]`. -/
def fieldQ (op : Byte) : Nat := (op.extractLsb' 3 1).toNat

/-! ## Operand tables -/

/-- `r8[i]` (R91); `none` for the value 6, which selects the memory operand. -/
def Reg8.ofField : Nat → Option Reg8
  | 0 => some .b
  | 1 => some .c
  | 2 => some .d
  | 3 => some .e
  | 4 => some .h
  | 5 => some .l
  | 6 => none
  | _ => some .a

/-- `x8[i]` with a prefix in force (R92); `none` for the value 6. -/
def RegX.ofField : Nat → Option RegX
  | 0 => some .b
  | 1 => some .c
  | 2 => some .d
  | 3 => some .e
  | 4 => some .hi
  | 5 => some .lo
  | 6 => none
  | _ => some .a

/-- The index half that the field values 4 and 5 select (R92). -/
def Half.ofField : Nat → Half
  | 4 => .hi
  | _ => .lo

/-- `ss[p]`, and `rr[p]` with no prefix (R95). -/
def Pair.ofField : Nat → Pair
  | 0 => .bc
  | 1 => .de
  | 2 => .hl
  | _ => .sp

/-- `rr[p]` with a prefix in force (R95). -/
def PairX.ofField : Nat → PairX
  | 0 => .bc
  | 1 => .de
  | 2 => .idx
  | _ => .sp

/-- `qq[p]` with no prefix (R96). -/
def PairQ.ofField : Nat → PairQ
  | 0 => .bc
  | 1 => .de
  | 2 => .hl
  | _ => .af

/-- The conditions of R97 by number. -/
def Cond.ofField : Nat → Cond
  | 0 => .nz
  | 1 => .z
  | 2 => .nc
  | 3 => .c
  | 4 => .po
  | 5 => .pe
  | 6 => .p
  | _ => .m

/-- The conditions of `JR cc` by `op[4:3]` (R97; 47_control_flow.md R344). -/
def CondShort.ofField : Nat → CondShort
  | 0 => .nz
  | 1 => .z
  | 2 => .nc
  | _ => .c

/-! ## What the decoder still has to read -/

/-- An instruction, or what must be read next to get it: one byte (`Fetch8`, R100) or one 16-bit immediate (`Fetch16`,
R101). The list decoder and the fetch from memory both run this. -/
inductive Parse where
  | done (i : Instr)
  | byte (k : Byte → Parse)
  | word (k : Word → Parse)

/-! ## The regimes -/

/-- The accumulator operation number `y` on a register or on (HL) (44_alu8.md R258). -/
def decodeAlu (y : Nat) : Option Reg8 → Instr
  | some r =>
    match y with
    | 0 => .addAR r | 1 => .adcAR r | 2 => .subR r | 3 => .sbcAR r
    | 4 => .andR r | 5 => .xorR r | 6 => .orR r | _ => .cpR r
  | none =>
    match y with
    | 0 => .addAMemHl | 1 => .adcAMemHl | 2 => .subMemHl | 3 => .sbcAMemHl
    | 4 => .andMemHl | 5 => .xorMemHl | 6 => .orMemHl | _ => .cpMemHl

/-- The accumulator operation number `y` on an immediate (R106, R258). -/
def decodeAluN (y : Nat) (n : Byte) : Instr :=
  match y with
  | 0 => .addAN n | 1 => .adcAN n | 2 => .subN n | 3 => .sbcAN n
  | 4 => .andN n | 5 => .xorN n | 6 => .orN n | _ => .cpN n

/-- The accumulator operation number `y` on an index half (R111, R258). -/
def decodeAluHalf (y : Nat) (j : IdxReg) (h : Half) : Instr :=
  match y with
  | 0 => .addAIxHalf j h | 1 => .adcAIxHalf j h | 2 => .subIxHalf j h | 3 => .sbcAIxHalf j h
  | 4 => .andIxHalf j h | 5 => .xorIxHalf j h | 6 => .orIxHalf j h | _ => .cpIxHalf j h

/-- The accumulator operation number `y` on (IX+d) or (IY+d) (R111, R258). -/
def decodeAluMemIx (y : Nat) (j : IdxReg) (d : Byte) : Instr :=
  match y with
  | 0 => .addAMemIx j d | 1 => .adcAMemIx j d | 2 => .subMemIx j d | 3 => .sbcAMemIx j d
  | 4 => .andMemIx j d | 5 => .xorMemIx j d | 6 => .orMemIx j d | _ => .cpMemIx j d

/-- Regime `cb` (R115): the byte after `CB`. -/
def decodeCb (op : Byte) : Instr :=
  let y := fieldY op
  let b := field3Y op
  match fieldX op, Reg8.ofField (fieldZ op) with
  | 0, some r =>
    match y with
    | 0 => .rlcR r | 1 => .rrcR r | 2 => .rlR r | 3 => .rrR r
    | 4 => .slaR r | 5 => .sraR r | 6 => .sllR r | _ => .srlR r
  | 0, none =>
    match y with
    | 0 => .rlcMemHl | 1 => .rrcMemHl | 2 => .rlMemHl | 3 => .rrMemHl
    | 4 => .slaMemHl | 5 => .sraMemHl | 6 => .sllMemHl | _ => .srlMemHl
  | 1, some r => .bitR b r
  | 1, none => .bitMemHl b
  | 2, some r => .resR b r
  | 2, none => .resMemHl b
  | _, some r => .setR b r
  | _, none => .setMemHl b

/-- Regime `idxcb` (R116): the byte after `pfx CB d`. Only `z = 6` is implemented (decision D13). -/
def decodeIdxCb (j : IdxReg) (d op : Byte) : Instr :=
  if fieldZ op = 6 then
    match fieldX op with
    | 0 =>
      match fieldY op with
      | 0 => .rlcMemIx j d | 1 => .rrcMemIx j d | 2 => .rlMemIx j d | 3 => .rrMemIx j d
      | 4 => .slaMemIx j d | 5 => .sraMemIx j d | 6 => .sllMemIx j d | _ => .srlMemIx j d
    | 1 => .bitMemIx (field3Y op) j d
    | 2 => .resMemIx (field3Y op) j d
    | _ => .setMemIx (field3Y op) j d
  else .idxCbOther j d op

/-- Regime `ed` (R120, R123): the byte after `ED`; first the four masked families, then the direct values. -/
def decodeEd (op : Byte) : Parse :=
  let p := Pair.ofField (fieldP op)
  if op &&& 0xCF = 0x4A then .done (.adcHlRr p)
  else if op &&& 0xCF = 0x42 then .done (.sbcHlRr p)
  else if op &&& 0xCF = 0x43 then .word fun nn => .done (.ldMemNnRr p nn)
  else if op &&& 0xCF = 0x4B then .word fun nn => .done (.ldRrMemNn p nn)
  else if op = 0x44 then .done .neg
  else if op = 0x57 then .done .ldAI
  else if op = 0x67 then .done .rrd
  else if op = 0x6F then .done .rld
  else if op = 0xA0 then .done .ldi
  else if op = 0xA1 then .done .cpi
  else if op = 0xA8 then .done .ldd
  else if op = 0xA9 then .done .cpd
  else if op = 0xB0 then .done .ldir
  else if op = 0xB1 then .done .cpir
  else if op = 0xB8 then .done .lddr
  else if op = 0xB9 then .done .cpdr
  else .done (.edOther op)

/-- The quarter `x = 0` of the main map (R105 to R107). -/
def decodeMain0 (op : Byte) : Parse :=
  let y := fieldY op
  let p := fieldP op
  match fieldZ op with
  | 0 =>
    match y with
    | 0 => .done .nop
    | 1 => .done .exAfAf
    | 2 => .byte fun e => .done (.djnz e)
    | 3 => .byte fun e => .done (.jr e)
    | y => .byte fun e => .done (.jrCc (CondShort.ofField (y - 4)) e)
  | 1 =>
    match fieldQ op with
    | 0 => .word fun nn => .done (.ldRrNn (Pair.ofField p) nn)
    | _ => .done (.addHlRr (Pair.ofField p))
  | 2 =>
    match y with
    | 0 => .done .ldMemBcA
    | 1 => .done .ldAMemBc
    | 2 => .done .ldMemDeA
    | 3 => .done .ldAMemDe
    | 4 => .word fun nn => .done (.ldMemNnHl nn)
    | 5 => .word fun nn => .done (.ldHlMemNn nn)
    | 6 => .word fun nn => .done (.ldMemNnA nn)
    | _ => .word fun nn => .done (.ldAMemNn nn)
  | 3 =>
    match fieldQ op with
    | 0 => .done (.incRr (Pair.ofField p))
    | _ => .done (.decRr (Pair.ofField p))
  | 4 =>
    match Reg8.ofField y with
    | some r => .done (.incR r)
    | none => .done .incMemHl
  | 5 =>
    match Reg8.ofField y with
    | some r => .done (.decR r)
    | none => .done .decMemHl
  | 6 =>
    match Reg8.ofField y with
    | some r => .byte fun n => .done (.ldRN r n)
    | none => .byte fun n => .done (.ldMemHlN n)
  | _ =>
    match y with
    | 0 => .done .rlca
    | 1 => .done .rrca
    | 2 => .done .rla
    | 3 => .done .rra
    | 4 => .done .daa
    | 5 => .done .cpl
    | 6 => .done .scf
    | _ => .done .ccf

/-- The quarter `x = 3` of the main map (R105 to R107); the escapes are followed into their regimes (R128). The bytes
`DD` and `FD` never come here: `decode` and the fetch absorb them first (40_instruction_cycle.md R134). -/
def decodeMain3 (op : Byte) : Parse :=
  let y := fieldY op
  let p := fieldP op
  match fieldZ op with
  | 0 => .done (.retCc (Cond.ofField y))
  | 1 =>
    match fieldQ op with
    | 0 => .done (.popQq (PairQ.ofField p))
    | _ =>
      match p with
      | 0 => .done .ret
      | 1 => .done .exx
      | 2 => .done .jpHl
      | _ => .done .ldSpHl
  | 2 => .word fun nn => .done (.jpCcNn (Cond.ofField y) nn)
  | 3 =>
    match y with
    | 0 => .word fun nn => .done (.jpNn nn)
    | 1 => .byte fun op' => .done (decodeCb op')
    | 2 => .byte fun n => .done (.outNA n)
    | 3 => .byte fun n => .done (.inAN n)
    | 4 => .done .exMemSpHl
    | 5 => .done .exDeHl
    | 6 => .done .di
    | _ => .done .ei
  | 4 => .word fun nn => .done (.callCcNn (Cond.ofField y) nn)
  | 5 =>
    match fieldQ op with
    | 0 => .done (.pushQq (PairQ.ofField p))
    | _ =>
      match p with
      | 0 => .word fun nn => .done (.callNn nn)
      | 1 => .done .ddPrefix
      | 2 => .byte decodeEd
      | _ => .done .fdPrefix
  | 6 => .byte fun n => .done (decodeAluN y n)
  | _ =>
    match y with
    | 0 => .done .rst0
    | _ => .done (.rstP (field3Y op))

/-- Regime `main` (R108). `0x76` is tested before the range `0x40..0x7F` (R109). -/
def decodeMain (op : Byte) : Parse :=
  if op = 0x76 then .done .halt
  else
    match fieldX op with
    | 0 => decodeMain0 op
    | 1 =>
      match Reg8.ofField (fieldY op), Reg8.ofField (fieldZ op) with
      | some r, some r' => .done (.ldRR r r')
      | some r, none => .done (.ldRMemHl r)
      | none, some r' => .done (.ldMemHlR r')
      | none, none => .done .halt
    | 2 => .done (decodeAlu (fieldY op) (Reg8.ofField (fieldZ op)))
    | _ => decodeMain3 op

/-- `dd_fd_prefixable`, the 86 opcodes of R110. -/
def ddFdPrefixable : List Byte :=
  [0x09, 0x19, 0x29, 0x39,
   0x21, 0x22, 0x23, 0x2A, 0x2B,
   0x24, 0x25, 0x26, 0x2C, 0x2D, 0x2E,
   0x34, 0x35, 0x36] ++
  [0x44, 0x45, 0x46, 0x4C, 0x4D, 0x4E, 0x54, 0x55, 0x56, 0x5C, 0x5D, 0x5E,
   0x60, 0x61, 0x62, 0x63, 0x64, 0x65, 0x66, 0x67,
   0x68, 0x69, 0x6A, 0x6B, 0x6C, 0x6D, 0x6E, 0x6F,
   0x70, 0x71, 0x72, 0x73, 0x74, 0x75, 0x77,
   0x7C, 0x7D, 0x7E] ++
  [0x84, 0x85, 0x86, 0x8C, 0x8D, 0x8E, 0x94, 0x95, 0x96, 0x9C, 0x9D, 0x9E,
   0xA4, 0xA5, 0xA6, 0xAC, 0xAD, 0xAE, 0xB4, 0xB5, 0xB6, 0xBC, 0xBD, 0xBE,
   0xCB, 0xE1, 0xE3, 0xE5, 0xE9, 0xF9]

/-- The quarter `x = 0` of the indexed map (R111), for a prefixable opcode. -/
def decodeIdx0 (j : IdxReg) (op : Byte) : Parse :=
  let y := fieldY op
  match fieldZ op with
  | 1 =>
    match fieldQ op with
    | 0 => .word fun nn => .done (.ldIxNn j nn)
    | _ => .done (.addIxRr j (PairX.ofField (fieldP op)))
  | 2 =>
    match fieldQ op with
    | 0 => .word fun nn => .done (.ldMemNnIx j nn)
    | _ => .word fun nn => .done (.ldIxMemNn j nn)
  | 3 =>
    match fieldQ op with
    | 0 => .done (.incIx j)
    | _ => .done (.decIx j)
  | 4 => if y = 6 then .byte fun d => .done (.incMemIx j d) else .done (.incIxHalf j (Half.ofField y))
  | 5 => if y = 6 then .byte fun d => .done (.decMemIx j d) else .done (.decIxHalf j (Half.ofField y))
  | _ =>
    if y = 6 then .byte fun d => .byte fun n => .done (.ldMemIxN j d n)
    else .byte fun n => .done (.ldIxHalfN j (Half.ofField y) n)

/-- Regime `idx` (R111): an opcode outside `dd_fd_prefixable` discards the prefix run (40_instruction_cycle.md R135).
Only one side is displaced (R112): with a memory operand the register operand is the plain `r8`. -/
def decodeIdx (j : IdxReg) (op : Byte) : Parse :=
  if op ∉ ddFdPrefixable then .done (.prefixDiscarded j op)
  else
    match fieldX op with
    | 0 => decodeIdx0 j op
    | 1 =>
      match Reg8.ofField (fieldY op), Reg8.ofField (fieldZ op) with
      | some r, none => .byte fun d => .done (.ldRMemIx j r d)
      | none, some r => .byte fun d => .done (.ldMemIxR j d r)
      | _, _ =>
        match RegX.ofField (fieldY op), RegX.ofField (fieldZ op) with
        | some x, some x' => .done (.ldXX j x x')
        | _, _ => .done (.prefixDiscarded j op)
    | 2 =>
      if fieldZ op = 6 then .byte fun d => .done (decodeAluMemIx (fieldY op) j d)
      else .done (decodeAluHalf (fieldY op) j (Half.ofField (fieldZ op)))
    | _ =>
      if op = 0xCB then .byte fun d => .byte fun op' => .done (decodeIdxCb j d op')
      else if op = 0xE1 then .done (.popIx j)
      else if op = 0xE3 then .done (.exMemSpIx j)
      else if op = 0xE5 then .done (.pushIx j)
      else if op = 0xE9 then .done (.jpIx j)
      else .done (.ldSpIx j)

/-- The opcode byte after the prefix run, decoded in the regime the latch gives (R90, 40_instruction_cycle.md R137). -/
def decodeOpcode : Latch → Byte → Parse
  | .none, op => decodeMain op
  | .dd, op => decodeIdx .ix op
  | .fd, op => decodeIdx .iy op

/-! ## Decoding a list of bytes -/

/-- Why the decoder gives no instruction. Every byte sequence long enough decodes (R108, R110, R124). -/
inductive Reject where
  /-- The bytes end inside an instruction. -/
  | truncated
  deriving DecidableEq, Repr

/-- Run a `Parse` on bytes in address order; the bytes left over come back with the instruction. -/
def Parse.runList : Parse → List Byte → Except Reject (Instr × List Byte)
  | .done i, rest => .ok (i, rest)
  | .byte k, b :: rest => (k b).runList rest
  | .byte _, [] => .error .truncated
  | .word k, lo :: hi :: rest => (k (joinBytes lo hi)).runList rest
  | .word _, _ => .error .truncated

/-- Decode with a latch already set: absorb the run of `DD` and `FD` bytes, the last one wins (40_instruction_cycle.md
R134), then decode the opcode byte in its regime. -/
def decodeWith : Latch → List Byte → Except Reject (Instr × List Byte)
  | _, [] => .error .truncated
  | latch, op :: rest =>
    if op = 0xDD then decodeWith .dd rest
    else if op = 0xFD then decodeWith .fd rest
    else (decodeOpcode latch op).runList rest

/-- Decode the instruction at the head of a list of bytes; the prefix latch starts at NONE (R133). -/
def decode (bytes : List Byte) : Except Reject (Instr × List Byte) := decodeWith .none bytes

/-- The `n` lowest bytes of `w`, the least significant first. -/
def leBytes : Nat → Nat → List Byte
  | 0, _ => []
  | n + 1, w => BitVec.ofNat 8 w :: leBytes n (w / 256)

/-- The bytes of a table word: its own whole bytes, then zeros up to the longest instruction (4 bytes, R99). -/
def tableBytes (nbits w : Nat) : List Byte := leBytes ((nbits + 7) / 8 + 4) (w % 2 ^ nbits)

/-- What the decoder reads from an instruction whose bits are `w`, bit 0 the least significant bit of the first byte. -/
def decodeTableWord (nbits w : Nat) : Option Instr :=
  match decode (tableBytes nbits w) with
  | .ok (i, _) => some i
  | .error _ => none

/-! ## The encoder -/

/-- The number of a register in `r8` (R91). -/
def Reg8.code : Reg8 → Byte
  | .b => 0 | .c => 1 | .d => 2 | .e => 3 | .h => 4 | .l => 5 | .a => 7

/-- The number of a register in `x8` (R92). -/
def RegX.code : RegX → Byte
  | .b => 0 | .c => 1 | .d => 2 | .e => 3 | .hi => 4 | .lo => 5 | .a => 7

/-- The number of an index half in `x8` (R92). -/
def Half.code : Half → Byte
  | .hi => 4 | .lo => 5

/-- The number of a pair in `ss` (R95). -/
def Pair.code : Pair → Byte
  | .bc => 0 | .de => 1 | .hl => 2 | .sp => 3

/-- The number of a pair in `rr` with a prefix in force (R95). -/
def PairX.code : PairX → Byte
  | .bc => 0 | .de => 1 | .idx => 2 | .sp => 3

/-- The number of a pair in `qq` (R96). -/
def PairQ.code : PairQ → Byte
  | .bc => 0 | .de => 1 | .hl => 2 | .af => 3

/-- The number of a condition (R97). -/
def Cond.code : Cond → Byte
  | .nz => 0 | .z => 1 | .nc => 2 | .c => 3 | .po => 4 | .pe => 5 | .p => 6 | .m => 7

/-- The number of a condition of `JR cc` (R344). -/
def CondShort.code : CondShort → Byte
  | .nz => 0 | .z => 1 | .nc => 2 | .c => 3

/-- The prefix byte of an index register: `11i11101` (R99, R128). -/
def IdxReg.pfx : IdxReg → Byte
  | .ix => 0xDD | .iy => 0xFD

/-- `op` with `v` in the field `y`. -/
def withY (op v : Byte) : Byte := op ||| (v <<< 3)
/-- `op` with `v` in the field `p`. -/
def withP (op v : Byte) : Byte := op ||| (v <<< 4)
/-- `op` with `v` in the field `z`. -/
def withZ (op v : Byte) : Byte := op ||| v
/-- `op` with a bit number in the field `y`. -/
def withBit (op : Byte) (b : Field3) : Byte := op ||| (b.setWidth 8 <<< 3)

/-- The bytes of an instruction in address order, from the `encoding` column of the opcode table (R99, R128), without
redundant prefix bytes. The five decoder rows give the bytes the row itself consumes. -/
def encode : Instr → List Byte
  | .nop => [0x00]
  | .ldRrNn p nn => [withP 0x01 p.code, loByte nn, hiByte nn]
  | .ldMemBcA => [0x02]
  | .ldMemDeA => [0x12]
  | .ldAMemBc => [0x0A]
  | .ldAMemDe => [0x1A]
  | .incRr p => [withP 0x03 p.code]
  | .decRr p => [withP 0x0B p.code]
  | .addHlRr p => [withP 0x09 p.code]
  | .incR r => [withY 0x04 r.code]
  | .incMemHl => [0x34]
  | .decR r => [withY 0x05 r.code]
  | .decMemHl => [0x35]
  | .ldRN r n => [withY 0x06 r.code, n]
  | .ldMemHlN n => [0x36, n]
  | .rlca => [0x07]
  | .rrca => [0x0F]
  | .rla => [0x17]
  | .rra => [0x1F]
  | .exAfAf => [0x08]
  | .djnz e => [0x10, e]
  | .jr e => [0x18, e]
  | .jrCc cc e => [withY 0x20 cc.code, e]
  | .ldMemNnHl nn => [0x22, loByte nn, hiByte nn]
  | .ldHlMemNn nn => [0x2A, loByte nn, hiByte nn]
  | .ldMemNnA nn => [0x32, loByte nn, hiByte nn]
  | .ldAMemNn nn => [0x3A, loByte nn, hiByte nn]
  | .daa => [0x27]
  | .cpl => [0x2F]
  | .scf => [0x37]
  | .ccf => [0x3F]
  | .ldRR r r' => [withZ (withY 0x40 r.code) r'.code]
  | .ldRMemHl r => [withY 0x46 r.code]
  | .ldMemHlR r => [withZ 0x70 r.code]
  | .halt => [0x76]
  | .addAR r => [withZ 0x80 r.code]
  | .addAMemHl => [0x86]
  | .addAN n => [0xC6, n]
  | .adcAR r => [withZ 0x88 r.code]
  | .adcAMemHl => [0x8E]
  | .adcAN n => [0xCE, n]
  | .subR r => [withZ 0x90 r.code]
  | .subMemHl => [0x96]
  | .subN n => [0xD6, n]
  | .sbcAR r => [withZ 0x98 r.code]
  | .sbcAMemHl => [0x9E]
  | .sbcAN n => [0xDE, n]
  | .andR r => [withZ 0xA0 r.code]
  | .andMemHl => [0xA6]
  | .andN n => [0xE6, n]
  | .xorR r => [withZ 0xA8 r.code]
  | .xorMemHl => [0xAE]
  | .xorN n => [0xEE, n]
  | .orR r => [withZ 0xB0 r.code]
  | .orMemHl => [0xB6]
  | .orN n => [0xF6, n]
  | .cpR r => [withZ 0xB8 r.code]
  | .cpMemHl => [0xBE]
  | .cpN n => [0xFE, n]
  | .retCc cc => [withY 0xC0 cc.code]
  | .popQq q => [withP 0xC1 q.code]
  | .jpCcNn cc nn => [withY 0xC2 cc.code, loByte nn, hiByte nn]
  | .jpNn nn => [0xC3, loByte nn, hiByte nn]
  | .callCcNn cc nn => [withY 0xC4 cc.code, loByte nn, hiByte nn]
  | .pushQq q => [withP 0xC5 q.code]
  | .rst0 => [0xC7]
  | .rstP y => [withBit 0xC7 y]
  | .ret => [0xC9]
  | .cbEscape => [0xCB]
  | .callNn nn => [0xCD, loByte nn, hiByte nn]
  | .outNA n => [0xD3, n]
  | .exx => [0xD9]
  | .inAN n => [0xDB, n]
  | .ddPrefix => [0xDD]
  | .exMemSpHl => [0xE3]
  | .jpHl => [0xE9]
  | .exDeHl => [0xEB]
  | .edEscape => [0xED]
  | .di => [0xF3]
  | .ldSpHl => [0xF9]
  | .ei => [0xFB]
  | .fdPrefix => [0xFD]
  | .addIxRr j p => [j.pfx, withP 0x09 p.code]
  | .ldIxNn j nn => [j.pfx, 0x21, loByte nn, hiByte nn]
  | .ldMemNnIx j nn => [j.pfx, 0x22, loByte nn, hiByte nn]
  | .incIx j => [j.pfx, 0x23]
  | .ldIxMemNn j nn => [j.pfx, 0x2A, loByte nn, hiByte nn]
  | .decIx j => [j.pfx, 0x2B]
  | .incIxHalf j h => [j.pfx, withY 0x04 h.code]
  | .decIxHalf j h => [j.pfx, withY 0x05 h.code]
  | .ldIxHalfN j h n => [j.pfx, withY 0x06 h.code, n]
  | .incMemIx j d => [j.pfx, 0x34, d]
  | .decMemIx j d => [j.pfx, 0x35, d]
  | .ldMemIxN j d n => [j.pfx, 0x36, d, n]
  | .ldXX j x x' => [j.pfx, withZ (withY 0x40 x.code) x'.code]
  | .ldRMemIx j r d => [j.pfx, withY 0x46 r.code, d]
  | .ldMemIxR j d r => [j.pfx, withZ 0x70 r.code, d]
  | .addAIxHalf j h => [j.pfx, withZ 0x80 h.code]
  | .addAMemIx j d => [j.pfx, 0x86, d]
  | .adcAIxHalf j h => [j.pfx, withZ 0x88 h.code]
  | .adcAMemIx j d => [j.pfx, 0x8E, d]
  | .subIxHalf j h => [j.pfx, withZ 0x90 h.code]
  | .subMemIx j d => [j.pfx, 0x96, d]
  | .sbcAIxHalf j h => [j.pfx, withZ 0x98 h.code]
  | .sbcAMemIx j d => [j.pfx, 0x9E, d]
  | .andIxHalf j h => [j.pfx, withZ 0xA0 h.code]
  | .andMemIx j d => [j.pfx, 0xA6, d]
  | .xorIxHalf j h => [j.pfx, withZ 0xA8 h.code]
  | .xorMemIx j d => [j.pfx, 0xAE, d]
  | .orIxHalf j h => [j.pfx, withZ 0xB0 h.code]
  | .orMemIx j d => [j.pfx, 0xB6, d]
  | .cpIxHalf j h => [j.pfx, withZ 0xB8 h.code]
  | .cpMemIx j d => [j.pfx, 0xBE, d]
  | .cbEscapeIndexed j => [j.pfx, 0xCB]
  | .popIx j => [j.pfx, 0xE1]
  | .exMemSpIx j => [j.pfx, 0xE3]
  | .pushIx j => [j.pfx, 0xE5]
  | .jpIx j => [j.pfx, 0xE9]
  | .ldSpIx j => [j.pfx, 0xF9]
  | .prefixDiscarded j op => [j.pfx, op]
  | .rlcR r => [0xCB, withZ 0x00 r.code]
  | .rlcMemHl => [0xCB, 0x06]
  | .rrcR r => [0xCB, withZ 0x08 r.code]
  | .rrcMemHl => [0xCB, 0x0E]
  | .rlR r => [0xCB, withZ 0x10 r.code]
  | .rlMemHl => [0xCB, 0x16]
  | .rrR r => [0xCB, withZ 0x18 r.code]
  | .rrMemHl => [0xCB, 0x1E]
  | .slaR r => [0xCB, withZ 0x20 r.code]
  | .slaMemHl => [0xCB, 0x26]
  | .sraR r => [0xCB, withZ 0x28 r.code]
  | .sraMemHl => [0xCB, 0x2E]
  | .sllR r => [0xCB, withZ 0x30 r.code]
  | .sllMemHl => [0xCB, 0x36]
  | .srlR r => [0xCB, withZ 0x38 r.code]
  | .srlMemHl => [0xCB, 0x3E]
  | .bitR b r => [0xCB, withZ (withBit 0x40 b) r.code]
  | .bitMemHl b => [0xCB, withBit 0x46 b]
  | .resR b r => [0xCB, withZ (withBit 0x80 b) r.code]
  | .resMemHl b => [0xCB, withBit 0x86 b]
  | .setR b r => [0xCB, withZ (withBit 0xC0 b) r.code]
  | .setMemHl b => [0xCB, withBit 0xC6 b]
  | .rlcMemIx j d => [j.pfx, 0xCB, d, 0x06]
  | .rrcMemIx j d => [j.pfx, 0xCB, d, 0x0E]
  | .rlMemIx j d => [j.pfx, 0xCB, d, 0x16]
  | .rrMemIx j d => [j.pfx, 0xCB, d, 0x1E]
  | .slaMemIx j d => [j.pfx, 0xCB, d, 0x26]
  | .sraMemIx j d => [j.pfx, 0xCB, d, 0x2E]
  | .sllMemIx j d => [j.pfx, 0xCB, d, 0x36]
  | .srlMemIx j d => [j.pfx, 0xCB, d, 0x3E]
  | .bitMemIx b j d => [j.pfx, 0xCB, d, withBit 0x46 b]
  | .resMemIx b j d => [j.pfx, 0xCB, d, withBit 0x86 b]
  | .setMemIx b j d => [j.pfx, 0xCB, d, withBit 0xC6 b]
  | .idxCbOther j d op => [j.pfx, 0xCB, d, op]
  | .sbcHlRr p => [0xED, withP 0x42 p.code]
  | .adcHlRr p => [0xED, withP 0x4A p.code]
  | .ldMemNnRr p nn => [0xED, withP 0x43 p.code, loByte nn, hiByte nn]
  | .ldRrMemNn p nn => [0xED, withP 0x4B p.code, loByte nn, hiByte nn]
  | .neg => [0xED, 0x44]
  | .ldAI => [0xED, 0x57]
  | .rrd => [0xED, 0x67]
  | .rld => [0xED, 0x6F]
  | .ldi => [0xED, 0xA0]
  | .cpi => [0xED, 0xA1]
  | .ldd => [0xED, 0xA8]
  | .cpd => [0xED, 0xA9]
  | .ldir => [0xED, 0xB0]
  | .cpir => [0xED, 0xB1]
  | .lddr => [0xED, 0xB8]
  | .cpdr => [0xED, 0xB9]
  | .edOther op => [0xED, op]

end Sys2Proof
end

