-- ==== Sys2Proof/WellFormed.lean ====
section
/-! DEFINITION. Which terms of Instr are whole instructions that the decoder can give (30_encoding.md R105 to R124). -/

namespace Sys2Proof

/-- An index half, as an operand of `LD x,x'`. -/
def RegX.isHalf : RegX → Bool
  | .hi | .lo => true
  | .b | .c | .d | .e | .a => false

/-- The 28 opcodes of regime `ed` (R120). -/
def edImplemented : List Byte :=
  [0x4A, 0x5A, 0x6A, 0x7A, 0x42, 0x52, 0x62, 0x72, 0x43, 0x53, 0x63, 0x73, 0x4B, 0x5B, 0x6B, 0x7B,
   0x44, 0x57, 0x67, 0x6F, 0xA0, 0xA1, 0xA8, 0xA9, 0xB0, 0xB1, 0xB8, 0xB9]

/-- Well-formedness. The operand types leave five things to check: `RST p` has `p != 0` (R353); `LD x,x'` names at least
one index half (R200); a discarded prefix run ends before an opcode that is not prefixable and no prefix byte (R135);
the faulting indexed CB row has `z != 6` (R116); the faulting ED row is outside the 28 opcodes (R123). A decoder row (a
prefix byte or an escape byte alone) is no whole instruction (R128). -/
def Instr.wf : Instr → Bool
  | .nop | .ldRrNn _ _ | .ldMemBcA | .ldMemDeA | .ldAMemBc | .ldAMemDe | .incRr _ | .decRr _ | .addHlRr _ | .incR _
  | .incMemHl | .decR _ | .decMemHl | .ldRN _ _ | .ldMemHlN _ | .rlca | .rrca | .rla | .rra | .exAfAf | .djnz _
  | .jr _ | .jrCc _ _ | .ldMemNnHl _ | .ldHlMemNn _ | .ldMemNnA _ | .ldAMemNn _ | .daa | .cpl | .scf | .ccf
  | .ldRR _ _ | .ldRMemHl _ | .ldMemHlR _ | .halt | .addAR _ | .addAMemHl | .addAN _ | .adcAR _ | .adcAMemHl
  | .adcAN _ | .subR _ | .subMemHl | .subN _ | .sbcAR _ | .sbcAMemHl | .sbcAN _ | .andR _ | .andMemHl | .andN _
  | .xorR _ | .xorMemHl | .xorN _ | .orR _ | .orMemHl | .orN _ | .cpR _ | .cpMemHl | .cpN _ | .retCc _ | .popQq _
  | .jpCcNn _ _ | .jpNn _ | .callCcNn _ _ | .pushQq _ | .rst0 | .ret | .callNn _ | .outNA _ | .exx | .inAN _
  | .exMemSpHl | .jpHl | .exDeHl | .di | .ldSpHl | .ei | .addIxRr _ _ | .ldIxNn _ _ | .ldMemNnIx _ _ | .incIx _
  | .ldIxMemNn _ _ | .decIx _ | .incIxHalf _ _ | .decIxHalf _ _ | .ldIxHalfN _ _ _ | .incMemIx _ _ | .decMemIx _ _
  | .ldMemIxN _ _ _ | .ldRMemIx _ _ _ | .ldMemIxR _ _ _ | .addAIxHalf _ _ | .addAMemIx _ _ | .adcAIxHalf _ _
  | .adcAMemIx _ _ | .subIxHalf _ _ | .subMemIx _ _ | .sbcAIxHalf _ _ | .sbcAMemIx _ _ | .andIxHalf _ _
  | .andMemIx _ _ | .xorIxHalf _ _ | .xorMemIx _ _ | .orIxHalf _ _ | .orMemIx _ _ | .cpIxHalf _ _ | .cpMemIx _ _
  | .popIx _ | .exMemSpIx _ | .pushIx _ | .jpIx _ | .ldSpIx _ | .rlcR _ | .rlcMemHl | .rrcR _ | .rrcMemHl | .rlR _
  | .rlMemHl | .rrR _ | .rrMemHl | .slaR _ | .slaMemHl | .sraR _ | .sraMemHl | .sllR _ | .sllMemHl | .srlR _
  | .srlMemHl | .bitR _ _ | .bitMemHl _ | .resR _ _ | .resMemHl _ | .setR _ _ | .setMemHl _ | .rlcMemIx _ _
  | .rrcMemIx _ _ | .rlMemIx _ _ | .rrMemIx _ _ | .slaMemIx _ _ | .sraMemIx _ _ | .sllMemIx _ _ | .srlMemIx _ _
  | .bitMemIx _ _ _ | .resMemIx _ _ _ | .setMemIx _ _ _ | .sbcHlRr _ | .adcHlRr _ | .ldMemNnRr _ _ | .ldRrMemNn _ _
  | .neg | .ldAI | .rrd | .rld | .ldi | .cpi | .ldd | .cpd | .ldir | .cpir | .lddr | .cpdr => true
  | .rstP y => y ≠ 0
  | .ldXX _ x x' => x.isHalf || x'.isHalf
  | .prefixDiscarded _ op => op ∉ ddFdPrefixable && op ≠ 0xDD && op ≠ 0xFD
  | .idxCbOther _ _ op => fieldZ op ≠ 6
  | .edOther op => op ∉ edImplemented
  | .cbEscape | .edEscape | .ddPrefix | .fdPrefix | .cbEscapeIndexed _ => false

end Sys2Proof
end

