-- ==== Sys2Proof/Machine/State.lean ====
section
/-! DEFINITION. The state of the block as plain data (10_state.md), the reasons a step can stop, and the reset state. -/

namespace Sys2Proof.Machine

/-- Why a step has no next state (60_exceptions.md R400 to R404, 40_instruction_cycle.md R136). The payloads are
informative only (R404, decision D29; log 19). -/
inductive Fault where
  /-- R401: decoding reached a pattern with no handler. Raised by the meanings of `RST p` (p != 0), of the unlisted ED
  opcodes, of the indexed CB opcodes with `z != 6`, and of the two escape rows that find such an opcode. The bytes are
  the offending sequence. Safe: the block aborts there too. -/
  | unimplementedOpcode (bytes : List Byte)
  /-- R402: a byte access at `addr >= RAM_SIZE`, or a word access at `addr` with `addr + 1 >= RAM_SIZE`. Raised by the
  fetches and by every meaning that accesses memory. Safe: the spec calls the access undefined in the CPU's contract
  (R67, decision D3; log 7). -/
  | memoryOutOfRange (addr : Word)
  /-- R136: every byte of the address space is `DD` or `FD`, and the prefix loop never ends. Raised by the fetch. Safe: a
  hang has no next state (decision D23; log 8). -/
  | endlessPrefixRun
  deriving DecidableEq, Repr

/-- Why a step is not answered at all. -/
inductive Refusal where
  /-- An instruction with no meaning yet; raised by an arm of `exec` only, and no arm of this model does. Safe. -/
  | notModelled (mnemonic : String)
  /-- R422, decision D7: a step asked for while `running` is false, which the spec gives no meaning. Raised by `step`
  only. Safe (log 6). -/
  | notRunning
  deriving DecidableEq, Repr

/-- One set of 8-bit registers: the main set (10_state.md R20, R21) and the alternate set (R23) have this shape. -/
structure Bank where
  a : Byte
  f : Byte
  b : Byte
  c : Byte
  d : Byte
  e : Byte
  h : Byte
  l : Byte
  deriving DecidableEq, Repr

/-- One call of the I/O port (20_memory.md R80, R81). -/
inductive IoEvent where
  /-- `IoIn(port, a)`. -/
  | input (port a : Byte)
  /-- `IoOut(port, v)`. -/
  | output (port v : Byte)
  deriving DecidableEq, Repr

/-- The contents of memory: the bytes that are not `Memory.unlisted`, by rising address. -/
abbrev Memory := List Host.Cell

/-- What an address that is not listed reads as: memory is initialised to zero (20_memory.md R60). -/
def Memory.unlisted : Byte := 0x00

/-- The canonical form: addresses strictly rising, no entry equal to what an unlisted address reads as. -/
def Memory.wf : Memory → Bool
  | [] => true
  | (k, v) :: rest => v ≠ Memory.unlisted && rest.all (fun cell => k < cell.1) && Memory.wf rest

/-- The state of the block (10_state.md section 1). The 16-bit pairs BC, DE, HL, AF are views of the main set (R22); IXH,
IXL, IYH, IYL are views of `ix` and `iy`. -/
structure State where
  /-- A F B C D E H L (R20, R21). -/
  main : Bank
  /-- A' F' B' C' D' E' H' L' (R23). -/
  alt : Bank
  /-- IX (R24). -/
  ix : Word
  /-- IY (R24). -/
  iy : Word
  /-- SP (R25). -/
  sp : Word
  /-- PC (R26). -/
  pc : Word
  /-- I (R27). -/
  i : Byte
  /-- R (R27). -/
  r : Byte
  /-- The prefix latch (R35): set while a step decodes, NONE between steps (log 14). -/
  latch : Latch
  /-- `running` (R36). -/
  running : Bool
  /-- `starting` (R37). -/
  starting : Bool
  /-- Memory (20_memory.md R60). -/
  mem : Memory
  /-- MODEL'S OWN: the I/O calls made so far, the oldest first (20_memory.md R82; log 4). -/
  ioEvents : List IoEvent
  /-- The construction parameters (00_scope.md R7); no step writes them (log 1). -/
  cfg : Config
  deriving DecidableEq, Repr

/-- Construction, which is reset (70_reset_and_hazards.md R440, R441), for any parameters. -/
def State.construct (cfg : Config) : State where
  main := { a := 0xFF, f := 0xFF, b := 0x00, c := 0xFF, d := 0x03, e := 0xFF, h := 0x00, l := 0x00 }
  alt := { a := 0x00, f := 0x00, b := 0x00, c := 0x00, d := 0x00, e := 0x00, h := 0x00, l := 0x00 }
  ix := 0x0000
  iy := 0x0000
  sp := 0xF800
  pc := cfg.initialPc
  i := 0x00
  r := 0x00
  latch := .none
  running := true
  starting := true
  mem := []
  ioEvents := []
  cfg := cfg

/-- The machine right after reset, with the parameters of every example of the spec (log 1, 2). -/
def State.reset : State := State.construct Config.standard

end Sys2Proof.Machine
end

