-- ==== Sys2Proof/Machine/Ops.lean ====
section
/-! DEFINITION. The named operations over memory, the instruction stream, the stack, the I/O port and the stop
(20_memory.md, 30_encoding.md R100 to R103, 43_load16_exchange_stack.md R240, R241, 60_exceptions.md R401, R421). -/

namespace Sys2Proof.Machine

/-- What a meaning answers. -/
abbrev Result := Host.Outcome State Fault Refusal

/-- A computation that may fault, as the outcome of a step: a fault leaves no next state (60_exceptions.md R403). -/
def toResult : Except Fault State → Result
  | .ok s => .next s
  | .error e => .fault e

/-! ## Memory -/

/-- The byte an address reads as. -/
def Memory.get : Memory → Nat → Byte
  | [], _ => Memory.unlisted
  | (k, v) :: rest, a => if k = a then v else Memory.get rest a

/-- Memory with the byte at `a` set to `v`, in canonical form again. -/
def Memory.put : Memory → Nat → Byte → Memory
  | [], a, v => if v = Memory.unlisted then [] else [(a, v)]
  | (k, u) :: rest, a, v =>
    if a < k then (if v = Memory.unlisted then (k, u) :: rest else (a, v) :: (k, u) :: rest)
    else if a = k then (if v = Memory.unlisted then rest else (a, v) :: rest)
    else (k, u) :: Memory.put rest a v

/-- The byte of memory at an address, for an observer: no range check. -/
def State.byteAt (s : State) (a : Word) : Byte := s.mem.get a.toNat

/-- The condition of a byte access: `addr < RAM_SIZE` (R62). -/
def State.byteOk (s : State) (a : Word) : Bool := a.toNat < s.cfg.ramSize

/-- The condition of a word access: `addr + 1 < RAM_SIZE`, the sum without wrap-around, so never `addr = 0xFFFF` (R66,
60_exceptions.md R402). -/
def State.wordOk (s : State) (a : Word) : Bool := a.toNat + 1 < s.cfg.ramSize && a ≠ 0xFFFF

/-- `MemRead(addr, 1)` (R62). -/
def State.memRead8 (s : State) (a : Word) : Except Fault Byte :=
  if s.byteOk a then .ok (s.byteAt a) else .error (.memoryOutOfRange a)

/-- `MemWrite(addr, 1, v)` (R63). -/
def State.memWrite8 (s : State) (a : Word) (v : Byte) : Except Fault State :=
  if s.byteOk a then .ok { s with mem := s.mem.put a.toNat v } else .error (.memoryOutOfRange a)

/-- The little-endian word of memory at an address, for an observer (R64, R69). -/
def State.wordAt (s : State) (a : Word) : Word := joinBytes (s.byteAt a) (s.byteAt (a + 1))

/-- `MemRead(addr, 2)` (R64). -/
def State.memRead16 (s : State) (a : Word) : Except Fault Word :=
  if s.wordOk a then .ok (s.wordAt a) else .error (.memoryOutOfRange a)

/-- `MemWrite(addr, 2, v)` (R65). -/
def State.memWrite16 (s : State) (a : Word) (v : Word) : Except Fault State :=
  if s.wordOk a then
    .ok { s with mem := (s.mem.put a.toNat (loByte v)).put (a.toNat + 1) (hiByte v) }
  else .error (.memoryOutOfRange a)

/-! ## The instruction stream -/

/-- `Fetch8()`: read at PC, then advance PC by one modulo 65536 (30_encoding.md R100). -/
def State.fetch8 (s : State) : Except Fault (Byte × State) :=
  match s.memRead8 s.pc with
  | .ok v => .ok (v, { s with pc := s.pc + 1 })
  | .error e => .error e

/-- `Fetch16()`: one word access at PC, then advance PC by two modulo 65536 (R101). -/
def State.fetch16 (s : State) : Except Fault (Word × State) :=
  match s.memRead16 s.pc with
  | .ok v => .ok (v, { s with pc := s.pc + 2 })
  | .error e => .error e

/-- `sext_8(d)` as a 16-bit value (00_scope.md R10). -/
def sext (d : Byte) : Word := d.signExtend 16

/-- A relative transfer: PC, already past the offset, plus the signed offset modulo 65536 (R103). -/
def State.jumpRel (s : State) (e : Byte) : State := { s with pc := s.pc + sext e }

/-- A transfer to an address. -/
def State.jump (s : State) (target : Word) : State := { s with pc := target }

/-- Setting the prefix latch (40_instruction_cycle.md R134). -/
def State.setLatch (s : State) (latch : Latch) : State := { s with latch := latch }

/-! ## The stack -/

/-- `Push16(v)`: SP goes down by two modulo 65536, then the word is written at SP (43_load16_exchange_stack.md R240). -/
def State.push16 (s : State) (v : Word) : Except Fault State :=
  State.memWrite16 { s with sp := s.sp - 2 } (s.sp - 2) v

/-- `Pop16()`: the word at SP, then SP goes up by two modulo 65536 (R241). -/
def State.pop16 (s : State) : Except Fault (Word × State) :=
  match s.memRead16 s.sp with
  | .ok v => .ok (v, { s with sp := s.sp + 2 })
  | .error e => .error e

/-! ## The I/O port -/

/-- The byte the device returns for the next call: `0x00` from the default device (20_memory.md R82), a free value from
a replaced one, numbered by the calls made so far (log 3). -/
def State.deviceByte (s : State) : Byte :=
  match s.cfg.device with
  | .null => 0x00
  | .replaced => Config.ioDraw s.ioEvents.length

/-- `IoIn(port, a)`: the device's byte; the call is recorded (R80, R82). -/
def State.ioIn (s : State) (port a : Byte) : Byte × State :=
  (s.deviceByte, { s with ioEvents := s.ioEvents ++ [.input port a] })

/-- `IoOut(port, v)`: the default device discards the write; the call is recorded (R81, R82). -/
def State.ioOut (s : State) (port v : Byte) : State :=
  { s with ioEvents := s.ioEvents ++ [.output port v] }

/-! ## Endings -/

/-- The stop: `running <- false` (60_exceptions.md R421). -/
def State.stop (s : State) : State := { s with running := false }

/-- `raise UnimplementedOpcode(bytes)` (R401). -/
def unimplemented (bytes : List Byte) : Result := .fault (.unimplementedOpcode bytes)

end Sys2Proof.Machine
end

