-- ==== Sys2Proof/Machine/Operands.lean ====
section
/-! DEFINITION. Register and condition operands: the 16-bit views, and every operand table of 30_encoding.md section 3. -/

namespace Sys2Proof.Machine

/-! ## The 16-bit views of the main set (10_state.md R22) -/

/-- `BC = B :: C`. -/
def State.bc (s : State) : Word := joinBytes s.main.c s.main.b
/-- `DE = D :: E`. -/
def State.de (s : State) : Word := joinBytes s.main.e s.main.d
/-- `HL = H :: L`. -/
def State.hl (s : State) : Word := joinBytes s.main.l s.main.h
/-- `AF = A :: F`. -/
def State.af (s : State) : Word := joinBytes s.main.f s.main.a

/-- Writing BC writes both halves. -/
def State.setBc (s : State) (v : Word) : State := { s with main := { s.main with b := hiByte v, c := loByte v } }
/-- Writing DE writes both halves. -/
def State.setDe (s : State) (v : Word) : State := { s with main := { s.main with d := hiByte v, e := loByte v } }
/-- Writing HL writes both halves. -/
def State.setHl (s : State) (v : Word) : State := { s with main := { s.main with h := hiByte v, l := loByte v } }
/-- Writing AF writes both halves, all 8 bits of F (10_state.md R20). -/
def State.setAf (s : State) (v : Word) : State := { s with main := { s.main with a := hiByte v, f := loByte v } }

/-- Writing A. -/
def State.setA (s : State) (v : Byte) : State := { s with main := { s.main with a := v } }
/-- Writing F. -/
def State.setF (s : State) (v : Byte) : State := { s with main := { s.main with f := v } }

/-! ## 8-bit registers -/

/-- Reading `r8[i]` (30_encoding.md R91). -/
def State.getR8 (s : State) : Reg8 → Byte
  | .b => s.main.b | .c => s.main.c | .d => s.main.d | .e => s.main.e
  | .h => s.main.h | .l => s.main.l | .a => s.main.a

/-- Writing `r8[i]`. -/
def State.setR8 (s : State) (r : Reg8) (v : Byte) : State :=
  match r with
  | .b => { s with main := { s.main with b := v } }
  | .c => { s with main := { s.main with c := v } }
  | .d => { s with main := { s.main with d := v } }
  | .e => { s with main := { s.main with e := v } }
  | .h => { s with main := { s.main with h := v } }
  | .l => { s with main := { s.main with l := v } }
  | .a => { s with main := { s.main with a := v } }

/-- Reading the index register, which is `HLx` with a prefix in force (R93). -/
def State.getIx (s : State) : IdxReg → Word
  | .ix => s.ix
  | .iy => s.iy

/-- Writing the index register. -/
def State.setIx (s : State) (j : IdxReg) (v : Word) : State :=
  match j with
  | .ix => { s with ix := v }
  | .iy => { s with iy := v }

/-- Reading a half of the index register: IXH, IXL, IYH or IYL (R92). -/
def State.getHalf (s : State) (j : IdxReg) : Half → Byte
  | .hi => hiByte (s.getIx j)
  | .lo => loByte (s.getIx j)

/-- Writing a half leaves the other half unchanged (10_state.md R22). -/
def State.setHalf (s : State) (j : IdxReg) (h : Half) (v : Byte) : State :=
  match h with
  | .hi => s.setIx j (joinBytes (loByte (s.getIx j)) v)
  | .lo => s.setIx j (joinBytes v (hiByte (s.getIx j)))

/-- Reading `x8[i]` with a prefix in force (R92). -/
def State.getX (s : State) (j : IdxReg) : RegX → Byte
  | .b => s.main.b | .c => s.main.c | .d => s.main.d | .e => s.main.e
  | .hi => s.getHalf j .hi | .lo => s.getHalf j .lo | .a => s.main.a

/-- Writing `x8[i]` with a prefix in force. -/
def State.setX (s : State) (j : IdxReg) (x : RegX) (v : Byte) : State :=
  match x with
  | .b => s.setR8 .b v
  | .c => s.setR8 .c v
  | .d => s.setR8 .d v
  | .e => s.setR8 .e v
  | .hi => s.setHalf j .hi v
  | .lo => s.setHalf j .lo v
  | .a => s.setR8 .a v

/-! ## 16-bit registers -/

/-- Reading `ss[p]`, and `rr[p]` with no prefix (R95). -/
def State.getPair (s : State) : Pair → Word
  | .bc => s.bc | .de => s.de | .hl => s.hl | .sp => s.sp

/-- Writing `ss[p]`, and `rr[p]` with no prefix. -/
def State.setPair (s : State) (p : Pair) (v : Word) : State :=
  match p with
  | .bc => s.setBc v
  | .de => s.setDe v
  | .hl => s.setHl v
  | .sp => { s with sp := v }

/-- Reading `rr[p]` with a prefix in force: slot 2 is the index register (R95). -/
def State.getPairX (s : State) (j : IdxReg) : PairX → Word
  | .bc => s.bc | .de => s.de | .idx => s.getIx j | .sp => s.sp

/-- Reading `qq[p]` (R96). -/
def State.getPairQ (s : State) : PairQ → Word
  | .bc => s.bc | .de => s.de | .hl => s.hl | .af => s.af

/-- Writing `qq[p]`. -/
def State.setPairQ (s : State) (q : PairQ) (v : Word) : State :=
  match q with
  | .bc => s.setBc v
  | .de => s.setDe v
  | .hl => s.setHl v
  | .af => s.setAf v

/-! ## The displaced memory operand -/

/-- `EA6()` with a prefix in force: `(IX|IY + sext_8(d)) & 0xFFFF` (R94, R102). -/
def State.ea (s : State) (j : IdxReg) (d : Byte) : Word := s.getIx j + sext d

/-! ## Conditions -/

/-- `F.S` (10_state.md R30). -/
def State.flagS (s : State) : Bool := s.main.f.getLsbD 7
/-- `F.Z`. -/
def State.flagZ (s : State) : Bool := s.main.f.getLsbD 6
/-- `F.H`. -/
def State.flagH (s : State) : Bool := s.main.f.getLsbD 4
/-- `F.PV`. -/
def State.flagPV (s : State) : Bool := s.main.f.getLsbD 2
/-- `F.N`. -/
def State.flagN (s : State) : Bool := s.main.f.getLsbD 1
/-- `F.C`. -/
def State.flagC (s : State) : Bool := s.main.f.getLsbD 0

/-- `cond(cc)` for the 3-bit condition (30_encoding.md R97). -/
def State.cond (s : State) : Cond → Bool
  | .nz => !s.flagZ
  | .z => s.flagZ
  | .nc => !s.flagC
  | .c => s.flagC
  | .po => !s.flagPV
  | .pe => s.flagPV
  | .p => !s.flagS
  | .m => s.flagS

/-- `cond(cc)` for the 2-bit condition of `JR cc` (47_control_flow.md R344). -/
def State.condShort (s : State) : CondShort → Bool
  | .nz => !s.flagZ
  | .z => s.flagZ
  | .nc => !s.flagC
  | .c => s.flagC

/-! ## Memory operands: read, write, read-modify-write -/

/-- Read the byte at `a` and go on to the state `k` gives for it. -/
def State.withByte (s : State) (a : Word) (k : Byte → State) : Result :=
  match s.memRead8 a with
  | .ok v => .next (k v)
  | .error e => .fault e

/-- Read the word at `a` and go on to the state `k` gives for it. -/
def State.withWord (s : State) (a : Word) (k : Word → State) : Result :=
  match s.memRead16 a with
  | .ok v => .next (k v)
  | .error e => .fault e

/-- Write the byte `v` at `a`. -/
def State.storeByte (s : State) (a : Word) (v : Byte) : Result := toResult (s.memWrite8 a v)

/-- Write the word `v` at `a`. -/
def State.storeWord (s : State) (a : Word) (v : Word) : Result := toResult (s.memWrite16 a v)

/-- Read the byte `v` at `a`, write `new v` there, then set F to `flags v`: the read precedes the write. -/
def State.modifyByte (s : State) (a : Word) (new flags : Byte → Byte) : Result :=
  match s.memRead8 a with
  | .ok v =>
    match s.memWrite8 a (new v) with
    | .ok s' => .next (s'.setF (flags v))
    | .error e => .fault e
  | .error e => .fault e

end Sys2Proof.Machine
end

