-- ==== Sys2Proof/Machine/Flags.lean ====
section
/-! DEFINITION. The flag byte, the seven flag tables as functions (41_flag_tables.md), and every flag computation that the
instruction rules give, each on plain values. -/

namespace Sys2Proof.Machine

/-! ## Masks (10_state.md R30) -/

def sMask : Byte := 0x80
def zMask : Byte := 0x40
def yMask : Byte := 0x20
def hMask : Byte := 0x10
def xMask : Byte := 0x08
/-- The mask of P/V. -/
def vMask : Byte := 0x04
def nMask : Byte := 0x02
def cMask : Byte := 0x01

/-- `Y_MASK | X_MASK`. -/
def yxMask : Byte := yMask ||| xMask

/-- A mask where a condition holds, else 0. -/
def flagIf (cond : Bool) (mask : Byte) : Byte := if cond then mask else 0

/-- A carry as a byte, 0 or 1. -/
def carryByte (c : Bool) : Byte := if c then 1 else 0

/-! ## The tables -/

/-- `popcount(b)` (00_scope.md R9). -/
def popcount (b : Byte) : Nat :=
  (b.getLsbD 0).toNat + (b.getLsbD 1).toNat + (b.getLsbD 2).toNat + (b.getLsbD 3).toNat +
  (b.getLsbD 4).toNat + (b.getLsbD 5).toNat + (b.getLsbD 6).toNat + (b.getLsbD 7).toNat

/-- `sz[b]` (R161). -/
def sz (b : Byte) : Byte := (if b = 0 then zMask else b &&& sMask) ||| (b &&& yxMask)

/-- `sz_bit[b]` (R162). -/
def szBit (b : Byte) : Byte := sz b ||| flagIf (b = 0) vMask

/-- `szp[b]` (R163). -/
def szp (b : Byte) : Byte := sz b ||| flagIf (popcount b % 2 = 0) vMask

/-- `szhv_inc[b]` (R164). -/
def szhvInc (b : Byte) : Byte := sz b ||| flagIf (b = 0x80) vMask ||| flagIf (b &&& 0x0F = 0) hMask

/-- `szhv_dec[b]` (R165). -/
def szhvDec (b : Byte) : Byte :=
  sz b ||| nMask ||| flagIf (b = 0x7F) vMask ||| flagIf (b &&& 0x0F = 0x0F) hMask

/-- `overflow_add(cin, old, new)`, the form on the actual arithmetic (R168): `s(old) + s(val) + cin` outside
`[-128, 127]`, where `val` is recovered from the index. -/
def overflowAdd (cin : Bool) (old new : Byte) : Bool :=
  let val := new - old - carryByte cin
  let r := old.toInt + val.toInt + (carryByte cin).toNat
  r < -128 || 127 < r

/-- `overflow_sub(cin, old, new)` (R168): `s(old) - s(val) - cin` outside `[-128, 127]`. -/
def overflowSub (cin : Bool) (old new : Byte) : Bool :=
  let val := old - new - carryByte cin
  let r := old.toInt - val.toInt - (carryByte cin).toNat
  r < -128 || 127 < r

/-- `szhvc_add[(cin << 16) | (old << 8) | new]` (R166). -/
def szhvcAdd (cin : Bool) (old new : Byte) : Byte :=
  sz new |||
  flagIf (if cin then new &&& 0x0F ≤ old &&& 0x0F else new &&& 0x0F < old &&& 0x0F) hMask |||
  flagIf (if cin then new ≤ old else new < old) cMask |||
  flagIf (overflowAdd cin old new) vMask

/-- `szhvc_sub[(cin << 16) | (old << 8) | new]` (R167). -/
def szhvcSub (cin : Bool) (old new : Byte) : Byte :=
  nMask ||| sz new |||
  flagIf (if cin then old &&& 0x0F ≤ new &&& 0x0F else old &&& 0x0F < new &&& 0x0F) hMask |||
  flagIf (if cin then old ≤ new else old < new) cMask |||
  flagIf (overflowSub cin old new) vMask

/-! ## 8-bit arithmetic and logic (44_alu8.md): the new value and the new F -/

/-- The result of ADD and ADC (R250, R251). -/
def add8 (a v : Byte) (c : Bool) : Byte := a + v + carryByte c

/-- The result of SUB, SBC and CP (R252, R253, R257). -/
def sub8 (a v : Byte) (c : Bool) : Byte := a - v - carryByte c

/-- F after CP: as SUB, with Y and X from the operand (R257). -/
def cpFlags (a v : Byte) : Byte :=
  (szhvcSub false a (sub8 a v false) &&& ~~~yxMask) ||| (v &&& yxMask)

/-- F after an 8-bit INC, `new` the result (R260). -/
def incFlags (f new : Byte) : Byte := (f &&& cMask) ||| szhvInc new

/-- F after an 8-bit DEC, `new` the result (R261). -/
def decFlags (f new : Byte) : Byte := (f &&& cMask) ||| szhvDec new

/-- A after DAA (R270): both tests use A and F before the instruction. -/
def daaResult (a f : Byte) : Byte :=
  let lo := f.getLsbD 4 || 9 < a &&& 0x0F
  let hi := f.getLsbD 0 || 0x99 < a
  let adjust : Byte := (if lo then 0x06 else 0) + (if hi then 0x60 else 0)
  if f.getLsbD 1 then a - adjust else a + adjust

/-- F after DAA (R270, conflict C8: C is never cleared). -/
def daaFlags (a f : Byte) : Byte :=
  let t := daaResult a f
  (f &&& (cMask ||| nMask)) ||| flagIf (0x99 < a) cMask ||| ((a ^^^ t) &&& hMask) ||| szp t

/-- F after CPL, `new` the complemented A (R271). -/
def cplFlags (f new : Byte) : Byte :=
  (f &&& (sMask ||| zMask ||| vMask ||| cMask)) ||| hMask ||| nMask ||| (new &&& yxMask)

/-- F after SCF (R273). -/
def scfFlags (a f : Byte) : Byte :=
  (f &&& (sMask ||| zMask ||| vMask)) ||| cMask ||| (a &&& yxMask)

/-- F after CCF (R274). -/
def ccfFlags (a f : Byte) : Byte :=
  (f &&& (sMask ||| zMask ||| vMask)) ||| flagIf (f.getLsbD 0) hMask ||| (a &&& yxMask) |||
  flagIf (!f.getLsbD 0) cMask

/-- F after `LD A,I`, `new` the loaded value (42_load8.md R211). -/
def ldAIFlags (f new : Byte) : Byte := (f &&& cMask) ||| sz new

/-! ## 16-bit arithmetic (45_alu16.md) -/

/-- The high byte of a word, as the low byte of `w >> 8`. -/
def shr8 (w : Word) : Byte := (w >>> 8).setWidth 8

/-- F after `ADD HL,rr`: S, Z, P/V kept (R290). -/
def addHlFlags (f : Byte) (hl v : Word) : Byte :=
  let res := hl + v
  (f &&& (sMask ||| zMask ||| vMask)) ||| (shr8 (hl ^^^ res ^^^ v) &&& hMask) |||
  flagIf (0xFFFF < hl.toNat + v.toNat) cMask ||| (shr8 res &&& yxMask)

/-- The result of `ADC HL,rr` (R291). -/
def adc16 (hl v : Word) (c : Bool) : Word := hl + v + (carryByte c).setWidth 16

/-- F after `ADC HL,rr` (R291). -/
def adcHlFlags (hl v : Word) (c : Bool) : Byte :=
  let res := adc16 hl v c
  (shr8 (hl ^^^ res ^^^ v) &&& hMask) |||
  flagIf (0xFFFF < hl.toNat + v.toNat + (carryByte c).toNat) cMask |||
  (shr8 res &&& (sMask ||| yxMask)) ||| flagIf (res = 0) zMask |||
  flagIf ((v ^^^ hl ^^^ 0x8000) &&& (v ^^^ res) &&& 0x8000 ≠ 0) vMask

/-- The result of `SBC HL,rr` (R292). -/
def sbc16 (hl v : Word) (c : Bool) : Word := hl - v - (carryByte c).setWidth 16

/-- F after `SBC HL,rr` (R292). -/
def sbcHlFlags (hl v : Word) (c : Bool) : Byte :=
  let res := sbc16 hl v c
  nMask |||
  flagIf ((hl &&& 0x0FFF).toNat < (v &&& 0x0FFF).toNat + (carryByte c).toNat) hMask |||
  flagIf (hl.toNat < v.toNat + (carryByte c).toNat) cMask |||
  (shr8 res &&& (sMask ||| yxMask)) ||| flagIf (res = 0) zMask |||
  flagIf ((v ^^^ hl) &&& (hl ^^^ res) &&& 0x8000 ≠ 0) vMask

/-! ## Rotates, shifts, bits (46_rotate_shift_bit.md) -/

/-- A result and the bit shifted out. -/
structure Shifted where
  new : Byte
  cout : Bool
  deriving DecidableEq, Repr

/-- RLC (R310), and RLCA (R300). -/
def rlc (v : Byte) : Shifted := ⟨(v <<< 1) ||| carryByte (v.getLsbD 7), v.getLsbD 7⟩
/-- RRC (R311), and RRCA (R301). -/
def rrc (v : Byte) : Shifted := ⟨(v >>> 1) ||| (carryByte (v.getLsbD 0) <<< 7), v.getLsbD 0⟩
/-- RL (R312), and RLA (R302). -/
def rl (v : Byte) (c : Bool) : Shifted := ⟨(v <<< 1) ||| carryByte c, v.getLsbD 7⟩
/-- RR (R313), and RRA (R303, conflict C5). -/
def rr (v : Byte) (c : Bool) : Shifted := ⟨(v >>> 1) ||| (carryByte c <<< 7), v.getLsbD 0⟩
/-- SLA (R314). -/
def sla (v : Byte) : Shifted := ⟨v <<< 1, v.getLsbD 7⟩
/-- SRA (R315). -/
def sra (v : Byte) : Shifted := ⟨(v >>> 1) ||| (v &&& 0x80), v.getLsbD 0⟩
/-- SLL: shifts in a one (R316). -/
def sll (v : Byte) : Shifted := ⟨(v <<< 1) ||| 1, v.getLsbD 7⟩
/-- SRL (R317). -/
def srl (v : Byte) : Shifted := ⟨v >>> 1, v.getLsbD 0⟩

/-- F after an accumulator rotate: S, Z, P/V kept (section 1). -/
def accRotFlags (f : Byte) (r : Shifted) : Byte :=
  (f &&& (sMask ||| zMask ||| vMask)) ||| (r.new &&& yxMask) ||| flagIf r.cout cMask

/-- F after a rotate or shift of a register or memory byte (section 3). -/
def rotFlags (r : Shifted) : Byte := szp r.new ||| flagIf r.cout cMask

/-- `1 << b`. -/
def bitMask (b : Field3) : Byte := 1 <<< b.toNat

/-- F after `BIT b,x` (R320). -/
def bitFlags (f : Byte) (b : Field3) (v : Byte) : Byte := (f &&& cMask) ||| hMask ||| szBit (v &&& bitMask b)

/-- The result of `RES b,x` (R321). -/
def resBit (b : Field3) (v : Byte) : Byte := v &&& ~~~bitMask b

/-- The result of `SET b,x` (R322). -/
def setBit (b : Field3) (v : Byte) : Byte := v ||| bitMask b

/-- F after RLD and RRD, `new` the new A (section 5). -/
def rotDecFlags (f new : Byte) : Byte := (f &&& cMask) ||| szp new

/-! ## Block instructions (48_block.md) -/

/-- Y = bit 1 and X = bit 3 of `n`. -/
def blockYx (n : Byte) : Byte := (n &&& xMask) ||| flagIf (n &&& 0x02 ≠ 0) yMask

/-- F after LDI and LDD, `v` the byte copied, `bc` the new BC (R371). -/
def ldxFlags (f a v : Byte) (bc : Word) : Byte :=
  (f &&& (sMask ||| zMask ||| cMask)) ||| blockYx (v + a) ||| flagIf (bc ≠ 0) vMask

/-- F after CPI and CPD, `v` the byte compared, `bc` the new BC (R375). -/
def cpxFlags (f a v : Byte) (bc : Word) : Byte :=
  let res := a - v
  let h := (a ^^^ v ^^^ res) &&& hMask
  let n := res - (if h ≠ 0 then 1 else 0)
  (f &&& cMask) ||| (sz res &&& (sMask ||| zMask)) ||| h ||| nMask ||| flagIf (bc ≠ 0) vMask ||| blockYx n

end Sys2Proof.Machine
end

