-- ==== Sys2Proof/Machine/Load8.lean ====
section
/-! DEFINITION. The meanings of the 8-bit load group (42_load8.md). PC is already past the instruction (00_scope.md R12). -/

namespace Sys2Proof.Machine

/-- `LD r,r'` (R200). -/
def execLdRR (r : Reg8) (r' : Reg8) (s : State) : Result := .next (s.setR8 r (s.getR8 r'))

/-- `LD x,x' (x: B C D E IXH IXL A)` (R200) with both operands mapped. -/
def execLdXX (j : IdxReg) (x : RegX) (x' : RegX) (s : State) : Result := .next (s.setX j x (s.getX j x'))

/-- `LD r,(HL)` (R201). -/
def execLdRMemHl (r : Reg8) (s : State) : Result := s.withByte s.hl fun v => s.setR8 r v

/-- `LD r,(IX+d)` (R201), into the plain register (30_encoding.md R112). -/
def execLdRMemIx (j : IdxReg) (r : Reg8) (d : Byte) (s : State) : Result := s.withByte (s.ea j d) fun v => s.setR8 r v

/-- `LD (HL),r` (R202). -/
def execLdMemHlR (r : Reg8) (s : State) : Result := s.storeByte s.hl (s.getR8 r)

/-- `LD (IX+d),r` (R202), from the plain register (30_encoding.md R112). -/
def execLdMemIxR (j : IdxReg) (d : Byte) (r : Reg8) (s : State) : Result := s.storeByte (s.ea j d) (s.getR8 r)

/-- `LD r,n` (R203). -/
def execLdRN (r : Reg8) (n : Byte) (s : State) : Result := .next (s.setR8 r n)

/-- `LD IXH/IXL,n` (R203). -/
def execLdIxHalfN (j : IdxReg) (h : Half) (n : Byte) (s : State) : Result := .next (s.setHalf j h n)

/-- `LD (HL),n` (R204). -/
def execLdMemHlN (n : Byte) (s : State) : Result := s.storeByte s.hl n

/-- `LD (IX+d),n` (R204). -/
def execLdMemIxN (j : IdxReg) (d : Byte) (n : Byte) (s : State) : Result := s.storeByte (s.ea j d) n

/-- `LD A,(BC)` (R205). -/
def execLdAMemBc (s : State) : Result := s.withByte s.bc fun v => s.setA v

/-- `LD A,(DE)` (R206). -/
def execLdAMemDe (s : State) : Result := s.withByte s.de fun v => s.setA v

/-- `LD (BC),A` (R207). -/
def execLdMemBcA (s : State) : Result := s.storeByte s.bc s.main.a

/-- `LD (DE),A` (R208). -/
def execLdMemDeA (s : State) : Result := s.storeByte s.de s.main.a

/-- `LD A,(nn)` (R209). -/
def execLdAMemNn (nn : Word) (s : State) : Result := s.withByte nn fun v => s.setA v

/-- `LD (nn),A` (R210). -/
def execLdMemNnA (nn : Word) (s : State) : Result := s.storeByte nn s.main.a

/-- `LD A,I` (R211). -/
def execLdAI (s : State) : Result := .next ((s.setA s.i).setF (ldAIFlags s.main.f s.i))

end Sys2Proof.Machine
end

