-- ==== Sys2Proof/Machine/Load16.lean ====
section
/-! DEFINITION. The meanings of the 16-bit load, exchange and stack group (43_load16_exchange_stack.md). -/

namespace Sys2Proof.Machine

/-! ## 16-bit loads -/

/-- `LD rr,nn` (R220). -/
def execLdRrNn (p : Pair) (nn : Word) (s : State) : Result := .next (s.setPair p nn)

/-- `LD IX,nn` (R220). -/
def execLdIxNn (j : IdxReg) (nn : Word) (s : State) : Result := .next (s.setIx j nn)

/-- `LD HL,(nn)` (R221). -/
def execLdHlMemNn (nn : Word) (s : State) : Result := s.withWord nn fun v => s.setHl v

/-- `LD IX,(nn)` (R221). -/
def execLdIxMemNn (j : IdxReg) (nn : Word) (s : State) : Result := s.withWord nn fun v => s.setIx j v

/-- `LD (nn),HL` (R222). -/
def execLdMemNnHl (nn : Word) (s : State) : Result := s.storeWord nn s.hl

/-- `LD (nn),IX` (R222). -/
def execLdMemNnIx (j : IdxReg) (nn : Word) (s : State) : Result := s.storeWord nn (s.getIx j)

/-- `LD rr,(nn)` (R223), the ED form. -/
def execLdRrMemNn (p : Pair) (nn : Word) (s : State) : Result := s.withWord nn fun v => s.setPair p v

/-- `LD (nn),rr` (R224), the ED form. -/
def execLdMemNnRr (p : Pair) (nn : Word) (s : State) : Result := s.storeWord nn (s.getPair p)

/-- `LD SP,HL` (R227). -/
def execLdSpHl (s : State) : Result := .next { s with sp := s.hl }

/-- `LD SP,IX` (R227). -/
def execLdSpIx (j : IdxReg) (s : State) : Result := .next { s with sp := s.getIx j }

/-! ## Exchanges -/

/-- `EX AF,AF'` (R230). -/
def execExAfAf (s : State) : Result :=
  .next
    { s with
      main := { s.main with a := s.alt.a, f := s.alt.f }
      alt := { s.alt with a := s.main.a, f := s.main.f } }

/-- `EXX` (R231): six pairwise swaps, A and F stay where they are. -/
def execExx (s : State) : Result :=
  .next
    { s with
      main := { s.alt with a := s.main.a, f := s.main.f }
      alt := { s.main with a := s.alt.a, f := s.alt.f } }

/-- `EX DE,HL` (R232). -/
def execExDeHl (s : State) : Result := .next ((s.setDe s.hl).setHl s.de)

/-- `EX (SP),HL` (R233). -/
def execExMemSpHl (s : State) : Result :=
  match s.memRead16 s.sp with
  | .ok t =>
    match s.memWrite16 s.sp s.hl with
    | .ok s' => .next (s'.setHl t)
    | .error e => .fault e
  | .error e => .fault e

/-- `EX (SP),IX` (R233). -/
def execExMemSpIx (j : IdxReg) (s : State) : Result :=
  match s.memRead16 s.sp with
  | .ok t =>
    match s.memWrite16 s.sp (s.getIx j) with
    | .ok s' => .next (s'.setIx j t)
    | .error e => .fault e
  | .error e => .fault e

/-! ## The stack -/

/-- `PUSH qq` (R242). -/
def execPushQq (q : PairQ) (s : State) : Result := toResult (s.push16 (s.getPairQ q))

/-- `PUSH IX` (R242). -/
def execPushIx (j : IdxReg) (s : State) : Result := toResult (s.push16 (s.getIx j))

/-- `POP qq` (R243). -/
def execPopQq (q : PairQ) (s : State) : Result :=
  match s.pop16 with
  | .ok (v, s') => .next (s'.setPairQ q v)
  | .error e => .fault e

/-- `POP IX` (R243). -/
def execPopIx (j : IdxReg) (s : State) : Result :=
  match s.pop16 with
  | .ok (v, s') => .next (s'.setIx j v)
  | .error e => .fault e

end Sys2Proof.Machine
end

