-- ==== Sys2Proof/Machine/Alu8.lean ====
section
/-! DEFINITION. The meanings of the 8-bit arithmetic and logic group (44_alu8.md). -/

namespace Sys2Proof.Machine

/-! ## The eight accumulator operations on an operand value `v` (R250 to R257) -/

/-- ADD (R250). -/
def State.aluAdd (s : State) (v : Byte) : State :=
  let new := add8 s.main.a v false
  (s.setA new).setF (szhvcAdd false s.main.a new)

/-- ADC (R251). -/
def State.aluAdc (s : State) (v : Byte) : State :=
  let new := add8 s.main.a v s.flagC
  (s.setA new).setF (szhvcAdd s.flagC s.main.a new)

/-- SUB (R252). -/
def State.aluSub (s : State) (v : Byte) : State :=
  let new := sub8 s.main.a v false
  (s.setA new).setF (szhvcSub false s.main.a new)

/-- SBC (R253). -/
def State.aluSbc (s : State) (v : Byte) : State :=
  let new := sub8 s.main.a v s.flagC
  (s.setA new).setF (szhvcSub s.flagC s.main.a new)

/-- AND: `szp | H_MASK`, C cleared (R254). -/
def State.aluAnd (s : State) (v : Byte) : State :=
  let new := s.main.a &&& v
  (s.setA new).setF (szp new ||| hMask)

/-- XOR: `szp`, H and C cleared (R255). -/
def State.aluXor (s : State) (v : Byte) : State :=
  let new := s.main.a ^^^ v
  (s.setA new).setF (szp new)

/-- OR: `szp`, H and C cleared (R256). -/
def State.aluOr (s : State) (v : Byte) : State :=
  let new := s.main.a ||| v
  (s.setA new).setF (szp new)

/-- CP: A is not written (R257). -/
def State.aluCp (s : State) (v : Byte) : State := s.setF (cpFlags s.main.a v)

/-! ## ADD, in the five operand forms of R258 -/

/-- `ADD A,r` (R250). -/
def execAddAR (r : Reg8) (s : State) : Result := .next (s.aluAdd (s.getR8 r))

/-- `ADD A,(HL)` (R250). -/
def execAddAMemHl (s : State) : Result := s.withByte s.hl s.aluAdd

/-- `ADD A,n` (R250). -/
def execAddAN (n : Byte) (s : State) : Result := .next (s.aluAdd n)

/-- `ADD A,IXH/IXL` (R250). -/
def execAddAIxHalf (j : IdxReg) (h : Half) (s : State) : Result := .next (s.aluAdd (s.getHalf j h))

/-- `ADD A,(IX+d)` (R250). -/
def execAddAMemIx (j : IdxReg) (d : Byte) (s : State) : Result := s.withByte (s.ea j d) s.aluAdd

/-! ## ADC, in the five operand forms of R258 -/

/-- `ADC A,r` (R251). -/
def execAdcAR (r : Reg8) (s : State) : Result := .next (s.aluAdc (s.getR8 r))

/-- `ADC A,(HL)` (R251). -/
def execAdcAMemHl (s : State) : Result := s.withByte s.hl s.aluAdc

/-- `ADC A,n` (R251). -/
def execAdcAN (n : Byte) (s : State) : Result := .next (s.aluAdc n)

/-- `ADC A,IXH/IXL` (R251). -/
def execAdcAIxHalf (j : IdxReg) (h : Half) (s : State) : Result := .next (s.aluAdc (s.getHalf j h))

/-- `ADC A,(IX+d)` (R251). -/
def execAdcAMemIx (j : IdxReg) (d : Byte) (s : State) : Result := s.withByte (s.ea j d) s.aluAdc

/-! ## SUB, in the five operand forms of R258 -/

/-- `SUB r` (R252). -/
def execSubR (r : Reg8) (s : State) : Result := .next (s.aluSub (s.getR8 r))

/-- `SUB (HL)` (R252). -/
def execSubMemHl (s : State) : Result := s.withByte s.hl s.aluSub

/-- `SUB n` (R252). -/
def execSubN (n : Byte) (s : State) : Result := .next (s.aluSub n)

/-- `SUB IXH/IXL` (R252). -/
def execSubIxHalf (j : IdxReg) (h : Half) (s : State) : Result := .next (s.aluSub (s.getHalf j h))

/-- `SUB (IX+d)` (R252). -/
def execSubMemIx (j : IdxReg) (d : Byte) (s : State) : Result := s.withByte (s.ea j d) s.aluSub

/-! ## SBC, in the five operand forms of R258 -/

/-- `SBC A,r` (R253). -/
def execSbcAR (r : Reg8) (s : State) : Result := .next (s.aluSbc (s.getR8 r))

/-- `SBC A,(HL)` (R253). -/
def execSbcAMemHl (s : State) : Result := s.withByte s.hl s.aluSbc

/-- `SBC A,n` (R253). -/
def execSbcAN (n : Byte) (s : State) : Result := .next (s.aluSbc n)

/-- `SBC A,IXH/IXL` (R253). -/
def execSbcAIxHalf (j : IdxReg) (h : Half) (s : State) : Result := .next (s.aluSbc (s.getHalf j h))

/-- `SBC A,(IX+d)` (R253). -/
def execSbcAMemIx (j : IdxReg) (d : Byte) (s : State) : Result := s.withByte (s.ea j d) s.aluSbc

/-! ## AND, in the five operand forms of R258 -/

/-- `AND r` (R254). -/
def execAndR (r : Reg8) (s : State) : Result := .next (s.aluAnd (s.getR8 r))

/-- `AND (HL)` (R254). -/
def execAndMemHl (s : State) : Result := s.withByte s.hl s.aluAnd

/-- `AND n` (R254). -/
def execAndN (n : Byte) (s : State) : Result := .next (s.aluAnd n)

/-- `AND IXH/IXL` (R254). -/
def execAndIxHalf (j : IdxReg) (h : Half) (s : State) : Result := .next (s.aluAnd (s.getHalf j h))

/-- `AND (IX+d)` (R254). -/
def execAndMemIx (j : IdxReg) (d : Byte) (s : State) : Result := s.withByte (s.ea j d) s.aluAnd

/-! ## XOR, in the five operand forms of R258 -/

/-- `XOR r` (R255). -/
def execXorR (r : Reg8) (s : State) : Result := .next (s.aluXor (s.getR8 r))

/-- `XOR (HL)` (R255). -/
def execXorMemHl (s : State) : Result := s.withByte s.hl s.aluXor

/-- `XOR n` (R255). -/
def execXorN (n : Byte) (s : State) : Result := .next (s.aluXor n)

/-- `XOR IXH/IXL` (R255). -/
def execXorIxHalf (j : IdxReg) (h : Half) (s : State) : Result := .next (s.aluXor (s.getHalf j h))

/-- `XOR (IX+d)` (R255). -/
def execXorMemIx (j : IdxReg) (d : Byte) (s : State) : Result := s.withByte (s.ea j d) s.aluXor

/-! ## OR, in the five operand forms of R258 -/

/-- `OR r` (R256). -/
def execOrR (r : Reg8) (s : State) : Result := .next (s.aluOr (s.getR8 r))

/-- `OR (HL)` (R256). -/
def execOrMemHl (s : State) : Result := s.withByte s.hl s.aluOr

/-- `OR n` (R256). -/
def execOrN (n : Byte) (s : State) : Result := .next (s.aluOr n)

/-- `OR IXH/IXL` (R256). -/
def execOrIxHalf (j : IdxReg) (h : Half) (s : State) : Result := .next (s.aluOr (s.getHalf j h))

/-- `OR (IX+d)` (R256). -/
def execOrMemIx (j : IdxReg) (d : Byte) (s : State) : Result := s.withByte (s.ea j d) s.aluOr

/-! ## CP, in the five operand forms of R258 -/

/-- `CP r` (R257). -/
def execCpR (r : Reg8) (s : State) : Result := .next (s.aluCp (s.getR8 r))

/-- `CP (HL)` (R257). -/
def execCpMemHl (s : State) : Result := s.withByte s.hl s.aluCp

/-- `CP n` (R257). -/
def execCpN (n : Byte) (s : State) : Result := .next (s.aluCp n)

/-- `CP IXH/IXL` (R257). -/
def execCpIxHalf (j : IdxReg) (h : Half) (s : State) : Result := .next (s.aluCp (s.getHalf j h))

/-- `CP (IX+d)` (R257). -/
def execCpMemIx (j : IdxReg) (d : Byte) (s : State) : Result := s.withByte (s.ea j d) s.aluCp

/-! ## 8-bit INC and DEC (R260, R261) -/

/-- `INC r` (R260). -/
def execIncR (r : Reg8) (s : State) : Result :=
  let new := s.getR8 r + 1
  .next ((s.setR8 r new).setF (incFlags s.main.f new))

/-- `INC (HL)` (R260). -/
def execIncMemHl (s : State) : Result := s.modifyByte s.hl (· + 1) fun v => incFlags s.main.f (v + 1)

/-- `INC IXH/IXL` (R260). -/
def execIncIxHalf (j : IdxReg) (h : Half) (s : State) : Result :=
  let new := s.getHalf j h + 1
  .next ((s.setHalf j h new).setF (incFlags s.main.f new))

/-- `INC (IX+d)` (R260). -/
def execIncMemIx (j : IdxReg) (d : Byte) (s : State) : Result :=
  s.modifyByte (s.ea j d) (· + 1) fun v => incFlags s.main.f (v + 1)

/-- `DEC r` (R261). -/
def execDecR (r : Reg8) (s : State) : Result :=
  let new := s.getR8 r - 1
  .next ((s.setR8 r new).setF (decFlags s.main.f new))

/-- `DEC (HL)` (R261). -/
def execDecMemHl (s : State) : Result := s.modifyByte s.hl (· - 1) fun v => decFlags s.main.f (v - 1)

/-- `DEC IXH/IXL` (R261). -/
def execDecIxHalf (j : IdxReg) (h : Half) (s : State) : Result :=
  let new := s.getHalf j h - 1
  .next ((s.setHalf j h new).setF (decFlags s.main.f new))

/-- `DEC (IX+d)` (R261). -/
def execDecMemIx (j : IdxReg) (d : Byte) (s : State) : Result :=
  s.modifyByte (s.ea j d) (· - 1) fun v => decFlags s.main.f (v - 1)

/-! ## Accumulator and flag adjustments (R270 to R274) -/

/-- `DAA` (R270). -/
def execDaa (s : State) : Result := .next ((s.setA (daaResult s.main.a s.main.f)).setF (daaFlags s.main.a s.main.f))

/-- `CPL` (R271). -/
def execCpl (s : State) : Result :=
  let new := s.main.a ^^^ 0xFF
  .next ((s.setA new).setF (cplFlags s.main.f new))

/-- `NEG` (R272). -/
def execNeg (s : State) : Result :=
  let new := sub8 0 s.main.a false
  .next ((s.setA new).setF (szhvcSub false 0 new))

/-- `SCF` (R273). -/
def execScf (s : State) : Result := .next (s.setF (scfFlags s.main.a s.main.f))

/-- `CCF` (R274). -/
def execCcf (s : State) : Result := .next (s.setF (ccfFlags s.main.a s.main.f))

end Sys2Proof.Machine
end

