-- ==== Sys2Proof/Machine/Alu16.lean ====
section
/-! DEFINITION. The meanings of the 16-bit arithmetic group (45_alu16.md). -/

namespace Sys2Proof.Machine

/-- `ADD HL,rr` (R290). -/
def execAddHlRr (p : Pair) (s : State) : Result :=
  let v := s.getPair p
  .next ((s.setHl (s.hl + v)).setF (addHlFlags s.main.f s.hl v))

/-- `ADD IX,rr` (R290). -/
def execAddIxRr (j : IdxReg) (p : PairX) (s : State) : Result :=
  let v := s.getPairX j p
  .next ((s.setIx j (s.getIx j + v)).setF (addHlFlags s.main.f (s.getIx j) v))

/-- `ADC HL,rr` (R291). -/
def execAdcHlRr (p : Pair) (s : State) : Result :=
  let v := s.getPair p
  .next ((s.setHl (adc16 s.hl v s.flagC)).setF (adcHlFlags s.hl v s.flagC))

/-- `SBC HL,rr` (R292). -/
def execSbcHlRr (p : Pair) (s : State) : Result :=
  let v := s.getPair p
  .next ((s.setHl (sbc16 s.hl v s.flagC)).setF (sbcHlFlags s.hl v s.flagC))

/-- `INC rr` (R293). -/
def execIncRr (p : Pair) (s : State) : Result := .next (s.setPair p (s.getPair p + 1))

/-- `DEC rr` (R294). -/
def execDecRr (p : Pair) (s : State) : Result := .next (s.setPair p (s.getPair p - 1))

/-- `INC IX` (R293). -/
def execIncIx (j : IdxReg) (s : State) : Result := .next (s.setIx j (s.getIx j + 1))

/-- `DEC IX` (R294). -/
def execDecIx (j : IdxReg) (s : State) : Result := .next (s.setIx j (s.getIx j - 1))

end Sys2Proof.Machine
end

