-- ==== Sys2Proof/Machine/Rotate.lean ====
section
/-! DEFINITION. The meanings of the rotate, shift and bit group (46_rotate_shift_bit.md). -/

namespace Sys2Proof.Machine

/-- An accumulator rotate (section 1). -/
def State.accRot (s : State) (r : Shifted) : State := (s.setA r.new).setF (accRotFlags s.main.f r)

/-- A rotate or shift of a register (section 3): `rot` gives the result for the operand. -/
def State.rotR8 (s : State) (r : Reg8) (rot : Byte → Shifted) : State :=
  let res := rot (s.getR8 r)
  (s.setR8 r res.new).setF (rotFlags res)

/-- A rotate or shift of a memory byte (section 3): the read precedes the write. -/
def State.rotMem (s : State) (a : Word) (rot : Byte → Shifted) : Result :=
  s.modifyByte a (fun v => (rot v).new) fun v => rotFlags (rot v)

/-- The effect of BIT on an operand value: only F changes (R320). -/
def State.bitTest (s : State) (b : Field3) (v : Byte) : State := s.setF (bitFlags s.main.f b v)

/-- `RLD`: the memory byte and A from the byte read and A (R330). -/
def rldBytes (a m : Byte) : Byte × Byte := ((m <<< 4) ||| (a &&& 0x0F), (a &&& 0xF0) ||| (m >>> 4))

/-- `RRD` (R331). -/
def rrdBytes (a m : Byte) : Byte × Byte := ((m >>> 4) ||| (a <<< 4), (a &&& 0xF0) ||| (m &&& 0x0F))

/-- A decimal rotate through the byte at HL: the read precedes the write (section 5). -/
def State.rotDec (s : State) (rot : Byte → Byte → Byte × Byte) : Result :=
  match s.memRead8 s.hl with
  | .ok m =>
    match s.memWrite8 s.hl (rot s.main.a m).1 with
    | .ok s' =>
      let new := (rot s.main.a m).2
      .next ((s'.setA new).setF (rotDecFlags s.main.f new))
    | .error e => .fault e
  | .error e => .fault e

/-! ## Accumulator rotates (R300 to R303) -/

/-- `RLCA` (R300). -/
def execRlca (s : State) : Result := .next (s.accRot (rlc s.main.a))

/-- `RRCA` (R301). -/
def execRrca (s : State) : Result := .next (s.accRot (rrc s.main.a))

/-- `RLA` (R302). -/
def execRla (s : State) : Result := .next (s.accRot (rl s.main.a s.flagC))

/-- `RRA` (R303). -/
def execRra (s : State) : Result := .next (s.accRot (rr s.main.a s.flagC))

/-! ## Rotates and shifts (R310 to R317) -/

/-- `RLC r` (R310). -/
def execRlcR (r : Reg8) (s : State) : Result := .next (s.rotR8 r rlc)

/-- `RLC (HL)` (R310). -/
def execRlcMemHl (s : State) : Result := s.rotMem s.hl rlc

/-- `RLC (IX+d)` (R310). -/
def execRlcMemIx (j : IdxReg) (d : Byte) (s : State) : Result := s.rotMem (s.ea j d) rlc

/-- `RRC r` (R311). -/
def execRrcR (r : Reg8) (s : State) : Result := .next (s.rotR8 r rrc)

/-- `RRC (HL)` (R311). -/
def execRrcMemHl (s : State) : Result := s.rotMem s.hl rrc

/-- `RRC (IX+d)` (R311). -/
def execRrcMemIx (j : IdxReg) (d : Byte) (s : State) : Result := s.rotMem (s.ea j d) rrc

/-- `RL r` (R312). -/
def execRlR (r : Reg8) (s : State) : Result := .next (s.rotR8 r (rl · s.flagC))

/-- `RL (HL)` (R312). -/
def execRlMemHl (s : State) : Result := s.rotMem s.hl (rl · s.flagC)

/-- `RL (IX+d)` (R312). -/
def execRlMemIx (j : IdxReg) (d : Byte) (s : State) : Result := s.rotMem (s.ea j d) (rl · s.flagC)

/-- `RR r` (R313). -/
def execRrR (r : Reg8) (s : State) : Result := .next (s.rotR8 r (rr · s.flagC))

/-- `RR (HL)` (R313). -/
def execRrMemHl (s : State) : Result := s.rotMem s.hl (rr · s.flagC)

/-- `RR (IX+d)` (R313). -/
def execRrMemIx (j : IdxReg) (d : Byte) (s : State) : Result := s.rotMem (s.ea j d) (rr · s.flagC)

/-- `SLA r` (R314). -/
def execSlaR (r : Reg8) (s : State) : Result := .next (s.rotR8 r sla)

/-- `SLA (HL)` (R314). -/
def execSlaMemHl (s : State) : Result := s.rotMem s.hl sla

/-- `SLA (IX+d)` (R314). -/
def execSlaMemIx (j : IdxReg) (d : Byte) (s : State) : Result := s.rotMem (s.ea j d) sla

/-- `SRA r` (R315). -/
def execSraR (r : Reg8) (s : State) : Result := .next (s.rotR8 r sra)

/-- `SRA (HL)` (R315). -/
def execSraMemHl (s : State) : Result := s.rotMem s.hl sra

/-- `SRA (IX+d)` (R315). -/
def execSraMemIx (j : IdxReg) (d : Byte) (s : State) : Result := s.rotMem (s.ea j d) sra

/-- `SLL r` (R316). -/
def execSllR (r : Reg8) (s : State) : Result := .next (s.rotR8 r sll)

/-- `SLL (HL)` (R316). -/
def execSllMemHl (s : State) : Result := s.rotMem s.hl sll

/-- `SLL (IX+d)` (R316). -/
def execSllMemIx (j : IdxReg) (d : Byte) (s : State) : Result := s.rotMem (s.ea j d) sll

/-- `SRL r` (R317). -/
def execSrlR (r : Reg8) (s : State) : Result := .next (s.rotR8 r srl)

/-- `SRL (HL)` (R317). -/
def execSrlMemHl (s : State) : Result := s.rotMem s.hl srl

/-- `SRL (IX+d)` (R317). -/
def execSrlMemIx (j : IdxReg) (d : Byte) (s : State) : Result := s.rotMem (s.ea j d) srl

/-! ## Bit test, reset, set (R320 to R322) -/

/-- `BIT b,r` (R320). -/
def execBitR (b : Field3) (r : Reg8) (s : State) : Result := .next (s.bitTest b (s.getR8 r))

/-- `BIT b,(HL)` (R320). -/
def execBitMemHl (b : Field3) (s : State) : Result := s.withByte s.hl fun v => s.bitTest b v

/-- `BIT b,(IX+d)` (R320). -/
def execBitMemIx (b : Field3) (j : IdxReg) (d : Byte) (s : State) : Result :=
  s.withByte (s.ea j d) fun v => s.bitTest b v

/-- `RES b,r` (R321). -/
def execResR (b : Field3) (r : Reg8) (s : State) : Result := .next (s.setR8 r (resBit b (s.getR8 r)))

/-- `RES b,(HL)` (R321). -/
def execResMemHl (b : Field3) (s : State) : Result := s.modifyByte s.hl (resBit b) fun _ => s.main.f

/-- `RES b,(IX+d)` (R321). -/
def execResMemIx (b : Field3) (j : IdxReg) (d : Byte) (s : State) : Result :=
  s.modifyByte (s.ea j d) (resBit b) fun _ => s.main.f

/-- `SET b,r` (R322). -/
def execSetR (b : Field3) (r : Reg8) (s : State) : Result := .next (s.setR8 r (setBit b (s.getR8 r)))

/-- `SET b,(HL)` (R322). -/
def execSetMemHl (b : Field3) (s : State) : Result := s.modifyByte s.hl (setBit b) fun _ => s.main.f

/-- `SET b,(IX+d)` (R322). -/
def execSetMemIx (b : Field3) (j : IdxReg) (d : Byte) (s : State) : Result :=
  s.modifyByte (s.ea j d) (setBit b) fun _ => s.main.f

/-! ## Decimal rotates (R330, R331) -/

/-- `RLD` (R330). -/
def execRld (s : State) : Result := s.rotDec rldBytes

/-- `RRD` (R331). -/
def execRrd (s : State) : Result := s.rotDec rrdBytes

end Sys2Proof.Machine
end

