-- ==== Sys2Proof/Machine/Control.lean ====
section
/-! DEFINITION. The meanings of the control-flow group (47_control_flow.md). -/

namespace Sys2Proof.Machine

/-- The transfer of a call: push PC, which is past the operand, then go to `nn` (R348). -/
def State.call (s : State) (nn : Word) : Result :=
  match s.push16 s.pc with
  | .ok s' => .next (s'.jump nn)
  | .error e => .fault e

/-- The transfer of a return: pop PC; a popped `0x0000` stops the machine in the same step (R350). -/
def State.doRet (s : State) : Result :=
  match s.pop16 with
  | .ok (v, s') => if v = 0x0000 then .next (s'.jump v).stop else .next (s'.jump v)
  | .error e => .fault e

/-- `JP nn` (R340). -/
def execJpNn (nn : Word) (s : State) : Result := .next (s.jump nn)

/-- `JP cc,nn` (R341): the operand is consumed either way. -/
def execJpCcNn (cc : Cond) (nn : Word) (s : State) : Result := if s.cond cc then .next (s.jump nn) else .next s

/-- `JP (HL)` (R342): no memory is read. -/
def execJpHl (s : State) : Result := .next (s.jump s.hl)

/-- `JP (IX)` (R342). -/
def execJpIx (j : IdxReg) (s : State) : Result := .next (s.jump (s.getIx j))

/-- `JR e` (R343). -/
def execJr (e : Byte) (s : State) : Result := .next (s.jumpRel e)

/-- `JR cc,e` (R344). -/
def execJrCc (cc : CondShort) (e : Byte) (s : State) : Result :=
  if s.condShort cc then .next (s.jumpRel e) else .next s

/-- `DJNZ e` (R345). -/
def execDjnz (e : Byte) (s : State) : Result :=
  let new := s.main.b - 1
  let s' := s.setR8 .b new
  if new ≠ 0 then .next (s'.jumpRel e) else .next s'

/-- `CALL nn` (R348). -/
def execCallNn (nn : Word) (s : State) : Result := s.call nn

/-- `CALL cc,nn` (R349). -/
def execCallCcNn (cc : Cond) (nn : Word) (s : State) : Result := if s.cond cc then s.call nn else .next s

/-- `RET` (R350). -/
def execRet (s : State) : Result := s.doRet

/-- `RET cc` (R351), with the stop convention of RET (decision D8). -/
def execRetCc (cc : Cond) (s : State) : Result := if s.cond cc then s.doRet else .next s

/-- `RST 0` (R352): nothing is pushed and PC stays after the opcode (decision D9). -/
def execRst0 (s : State) : Result := .next s.stop

/-- `RST p (p != 0): UnimplementedOpcode` (R353). -/
def execRstP (y : Field3) (_s : State) : Result := unimplemented [withBit 0xC7 y]

end Sys2Proof.Machine
end

