-- ==== Sys2Proof/Machine/Block.lean ====
section
/-! DEFINITION. The meanings of the block transfer and search group and their sequencer (48_block.md). -/

namespace Sys2Proof.Machine

/-- One pass of LDI (`step` = 1) or LDD (`step` = -1): R371, R372. The read precedes the write. -/
def State.ldx (s : State) (step : Word) : Except Fault State :=
  match s.memRead8 s.hl with
  | .error e => .error e
  | .ok v =>
    match s.memWrite8 s.de v with
    | .error e => .error e
    | .ok s1 =>
      let s2 := ((s1.setHl (s.hl + step)).setDe (s.de + step)).setBc (s.bc - 1)
      .ok (s2.setF (ldxFlags s.main.f s.main.a v (s.bc - 1)))

/-- One pass of CPI (`step` = 1) or CPD (`step` = -1): R375, R376. -/
def State.cpx (s : State) (step : Word) : Except Fault State :=
  match s.memRead8 s.hl with
  | .error e => .error e
  | .ok v =>
    let s2 := (s.setHl (s.hl + step)).setBc (s.bc - 1)
    .ok (s2.setF (cpxFlags s.main.f s.main.a v (s.bc - 1)))

/-- The block sequencer: a do-while loop of at most `n` passes (R370). -/
def blockLoop (body : State → Except Fault State) (done : State → Bool) : Nat → State → Except Fault State
  | 0, s => .ok s
  | n + 1, s =>
    match body s with
    | .error e => .error e
    | .ok s' => if done s' then .ok s' else blockLoop body done n s'

/-- The passes a repeating form makes at most when entered with `BC = bc`: `bc`, or 65536 for 0 (R380). -/
def passes (bc : Word) : Nat := (bc - 1).toNat + 1

/-- The exit test of LDIR and LDDR: `BC = 0`. -/
def State.bcZero (s : State) : Bool := s.bc = 0

/-- The exit test of CPIR and CPDR: `BC = 0` or the compare matched. -/
def State.bcZeroOrMatch (s : State) : Bool := s.bc = 0 || s.flagZ

/-- `LDI` (R371). -/
def execLdi (s : State) : Result := toResult (s.ldx 1)

/-- `LDD` (R372). -/
def execLdd (s : State) : Result := toResult (s.ldx (-1))

/-- `LDIR` (R373). -/
def execLdir (s : State) : Result := toResult (blockLoop (State.ldx · 1) State.bcZero (passes s.bc) s)

/-- `LDDR` (R374). -/
def execLddr (s : State) : Result := toResult (blockLoop (State.ldx · (-1)) State.bcZero (passes s.bc) s)

/-- `CPI` (R375). -/
def execCpi (s : State) : Result := toResult (s.cpx 1)

/-- `CPD` (R376). -/
def execCpd (s : State) : Result := toResult (s.cpx (-1))

/-- `CPIR` (R377). -/
def execCpir (s : State) : Result := toResult (blockLoop (State.cpx · 1) State.bcZeroOrMatch (passes s.bc) s)

/-- `CPDR` (R378). -/
def execCpdr (s : State) : Result := toResult (blockLoop (State.cpx · (-1)) State.bcZeroOrMatch (passes s.bc) s)

end Sys2Proof.Machine
end

