-- ==== Sys2Proof/Machine/IoMisc.lean ====
section
/-! DEFINITION. The meanings of the input/output and CPU control group (49_io_misc.md). -/

namespace Sys2Proof.Machine

/-- `IN A,(n)` (R390): the second argument is A before the read (decision D28). -/
def execInAN (n : Byte) (s : State) : Result :=
  let (v, s') := s.ioIn n s.main.a
  .next (s'.setA v)

/-- `OUT (n),A` (R391). -/
def execOutNA (n : Byte) (s : State) : Result := .next (s.ioOut n s.main.a)

/-- `NOP` (R392). -/
def execNop (s : State) : Result := .next s

/-- `HALT` (R393): PC stays after the opcode (decision D10). -/
def execHalt (s : State) : Result := .next s.stop

/-- `DI` (R394), accepted with no observable effect. -/
def execDi (s : State) : Result := .next s

/-- `EI` (R395), accepted with no observable effect. -/
def execEi (s : State) : Result := .next s

end Sys2Proof.Machine
end

