-- ==== Sys2Proof/Machine/DecoderRows.lean ====
section
/-! DEFINITION. The meanings of the table's decoder rows: the prefix bytes, the discarded prefix run, the escapes into the
regimes cb, idxcb and ed, and the two rows of those regimes that fault. An escape row's meaning is its rule's own
*Operation*, which starts with the fetch of the next byte; the decoder follows the escapes, so a step runs the rows of
the regimes instead, with the same result (log 15). -/

namespace Sys2Proof.Machine

/-! ## The prefix rows (40_instruction_cycle.md R134, R135) -/

/-- `(DD prefix)` (R134): the byte overwrites the latch. -/
def execDdPrefix (s : State) : Result := .next (s.setLatch .dd)

/-- `(FD prefix)` (R134): the byte overwrites the latch. -/
def execFdPrefix (s : State) : Result := .next (s.setLatch .fd)

/-- `(prefix discarded: opcode not in dd_fd_prefixable, including DD, FD handled by absorption)` (R135): PC goes back to the opcode byte, which the next step reads again. -/
def execPrefixDiscarded (_j : IdxReg) (_op : Byte) (s : State) : Result := .next { s with pc := s.pc - 1 }

/-! ## The rows that fault (60_exceptions.md R401) -/

/-- `(indexed CB with z != 6): UnimplementedOpcode` (R124). -/
def execIdxCbOther (j : IdxReg) (d : Byte) (op : Byte) (_s : State) : Result := unimplemented [j.pfx, 0xCB, d, op]

/-- `(any other ED opcode): UnimplementedOpcode` (R123). -/
def execEdOther (op : Byte) (_s : State) : Result := unimplemented [0xED, op]

/-! ## The CB escapes (46_rotate_shift_bit.md R305, R306) -/

/-- `rot_y(v)` (R310 to R317) by the number `y`, the carry as `RL` and `RR` read it. -/
def rotOf (y : Nat) (c : Bool) (v : Byte) : Shifted :=
  match y with
  | 0 => rlc v | 1 => rrc v | 2 => rl v c | 3 => rr v c
  | 4 => sla v | 5 => sra v | 6 => sll v | _ => srl v

/-- The value written back and the new F of a CB operation that writes back: `x` = 0, 2 or 3 (R305). -/
def cbWriteBack (op f v : Byte) : Byte × Byte :=
  match fieldX op with
  | 0 =>
    let r := rotOf (fieldY op) (f.getLsbD 0) v
    (r.new, rotFlags r)
  | 2 => (v &&& ~~~((1 : Byte) <<< fieldY op), f)
  | _ => (v ||| ((1 : Byte) <<< fieldY op), f)

/-- The dispatch of R305 on a memory byte at `a` (`z = 6`), and of R306. -/
def State.cbOnMem (s : State) (op : Byte) (a : Word) : Result :=
  match s.memRead8 a with
  | .error e => .fault e
  | .ok v =>
    if fieldX op = 1 then .next (s.bitTest (field3Y op) v)
    else
      match s.memWrite8 a (cbWriteBack op s.main.f v).1 with
      | .error e => .fault e
      | .ok s' => .next (s'.setF (cbWriteBack op s.main.f v).2)

/-- The dispatch of R305 on a register (`z != 6`). -/
def State.cbOnReg (s : State) (op : Byte) (r : Reg8) : Result :=
  if fieldX op = 1 then .next (s.bitTest (field3Y op) (s.getR8 r))
  else
    let (new, f) := cbWriteBack op s.main.f (s.getR8 r)
    .next ((s.setR8 r new).setF f)

/-- `(CB escape)` (R305): fetch the opcode, then the dispatch of R305. -/
def execCbEscape (s : State) : Result :=
  match s.fetch8 with
  | .error e => .fault e
  | .ok (op, s1) =>
    match Reg8.ofField (fieldZ op) with
    | some r => s1.cbOnReg op r
    | none => s1.cbOnMem op s1.hl

/-- `(CB escape, indexed)` (R306): fetch `d`, then the opcode, then the dispatch of R306. -/
def execCbEscapeIndexed (j : IdxReg) (s : State) : Result :=
  match s.fetch8 with
  | .error e => .fault e
  | .ok (d, s1) =>
    match s1.fetch8 with
    | .error e => .fault e
    | .ok (op, s2) =>
      if fieldZ op = 6 then s2.cbOnMem op (s2.ea j d)
      else unimplemented [j.pfx, 0xCB, d, op]

/-! ## The ED escape (30_encoding.md R120, R123) -/

/-- The two ED families with a 16-bit immediate: fetch it, then the operation. -/
def State.withImm16 (s : State) (k : Word → State → Result) : Result :=
  match s.fetch16 with
  | .error e => .fault e
  | .ok (nn, s1) => k nn s1

/-- The tests of R120 in their order, on the opcode `op` that has been fetched. -/
def State.edDispatch (s : State) (op : Byte) : Result :=
  let p := Pair.ofField (fieldP op)
  if op &&& 0xCF = 0x4A then execAdcHlRr p s
  else if op &&& 0xCF = 0x42 then execSbcHlRr p s
  else if op &&& 0xCF = 0x43 then s.withImm16 (execLdMemNnRr p)
  else if op &&& 0xCF = 0x4B then s.withImm16 (execLdRrMemNn p)
  else if op = 0x44 then execNeg s
  else if op = 0x57 then execLdAI s
  else if op = 0x67 then execRrd s
  else if op = 0x6F then execRld s
  else if op = 0xA0 then execLdi s
  else if op = 0xA1 then execCpi s
  else if op = 0xA8 then execLdd s
  else if op = 0xA9 then execCpd s
  else if op = 0xB0 then execLdir s
  else if op = 0xB1 then execCpir s
  else if op = 0xB8 then execLddr s
  else if op = 0xB9 then execCpdr s
  else unimplemented [0xED, op]

/-- `(ED escape)` (R120): fetch the opcode, then the tests of R120. -/
def execEdEscape (s : State) : Result :=
  match s.fetch8 with
  | .error e => .fault e
  | .ok (op, s1) => s1.edDispatch op

end Sys2Proof.Machine
end

