-- ==== Sys2Proof/Machine/Cycle.lean ====
section
/-! DEFINITION. The instruction cycle up to the operation of the decoded instruction (40_instruction_cycle.md R130 to
R137): the termination check, the absorption of prefix bytes, and the fetch of the instruction's other bytes. -/

namespace Sys2Proof.Machine

/-- Prefix absorption (R134): read bytes while they are `DD` or `FD`, each overwriting the latch; answer the opcode byte.
65536 prefix bytes in a row prove that the run never ends (R136, decision D23). -/
def absorb : Nat → State → Except Fault (Byte × State)
  | 0, _ => .error .endlessPrefixRun
  | n + 1, s =>
    match s.fetch8 with
    | .error e => .error e
    | .ok (op, s1) =>
      if op = 0xDD then absorb n (s1.setLatch .dd)
      else if op = 0xFD then absorb n (s1.setLatch .fd)
      else .ok (op, s1)

/-- Fetch what a `Parse` still has to read, byte by byte (R100) and word by word (R101). -/
def fetchParse : Parse → State → Except Fault (Instr × State)
  | .done i, s => .ok (i, s)
  | .byte k, s =>
    match s.fetch8 with
    | .error e => .error e
    | .ok (b, s1) => fetchParse (k b) s1
  | .word k, s =>
    match s.fetch16 with
    | .error e => .error e
    | .ok (w, s1) => fetchParse (k w) s1

/-- Fetch and decode the instruction at PC. PC comes back past its bytes, and the latch, whose value the decoded
instruction now carries, comes back as NONE (R133; log 14). -/
def fetchInstr (s : State) : Except Fault (Instr × State) :=
  match absorb 65536 (s.setLatch .none) with
  | .error e => .error e
  | .ok (op, s1) =>
    match fetchParse (decodeOpcode s1.latch op) s1 with
    | .error e => .error e
    | .ok (i, s2) => .ok (i, s2.setLatch .none)

/-- The condition of the termination check (R131). -/
def State.atSentinel (s : State) : Bool := s.pc = 0x0000 && !s.starting

/-- What a step does before the operation of an instruction. -/
inductive Cycle where
  /-- The step is not defined (R130, R422). -/
  | notRunning
  /-- The termination check fired: this is the next state (R131). -/
  | stopped (s : State)
  /-- An instruction was fetched: run it in this state. -/
  | run (i : Instr) (s : State)
  /-- A fetch faulted. -/
  | fault (e : Fault)
  deriving DecidableEq, Repr

/-- R130 up to `Dispatch(op)`. -/
def cycle (s : State) : Cycle :=
  if !s.running then .notRunning
  else if s.atSentinel then .stopped s.stop
  else
    match fetchInstr { s with starting := false } with
    | .error e => .fault e
    | .ok (i, s1) => .run i s1

end Sys2Proof.Machine
end

