-- ==== Sys2Proof/Machine/Dispatch.lean ====
section
/-! DEFINITION. The dispatch of an instruction to its meaning, one arm per constructor, in the table's order. -/

namespace Sys2Proof.Machine

/-- What an instruction does. PC in `s` is already past every byte of the instruction (00_scope.md R12, log 14). -/
def exec (i : Instr) (s : State) : Host.Outcome State Fault Refusal :=
  match i with
  | .nop => Sys2Proof.Machine.execNop s
  | .ldRrNn p nn => Sys2Proof.Machine.execLdRrNn p nn s
  | .ldMemBcA => Sys2Proof.Machine.execLdMemBcA s
  | .ldMemDeA => Sys2Proof.Machine.execLdMemDeA s
  | .ldAMemBc => Sys2Proof.Machine.execLdAMemBc s
  | .ldAMemDe => Sys2Proof.Machine.execLdAMemDe s
  | .incRr p => Sys2Proof.Machine.execIncRr p s
  | .decRr p => Sys2Proof.Machine.execDecRr p s
  | .addHlRr p => Sys2Proof.Machine.execAddHlRr p s
  | .incR r => Sys2Proof.Machine.execIncR r s
  | .incMemHl => Sys2Proof.Machine.execIncMemHl s
  | .decR r => Sys2Proof.Machine.execDecR r s
  | .decMemHl => Sys2Proof.Machine.execDecMemHl s
  | .ldRN r n => Sys2Proof.Machine.execLdRN r n s
  | .ldMemHlN n => Sys2Proof.Machine.execLdMemHlN n s
  | .rlca => Sys2Proof.Machine.execRlca s
  | .rrca => Sys2Proof.Machine.execRrca s
  | .rla => Sys2Proof.Machine.execRla s
  | .rra => Sys2Proof.Machine.execRra s
  | .exAfAf => Sys2Proof.Machine.execExAfAf s
  | .djnz e => Sys2Proof.Machine.execDjnz e s
  | .jr e => Sys2Proof.Machine.execJr e s
  | .jrCc cc e => Sys2Proof.Machine.execJrCc cc e s
  | .ldMemNnHl nn => Sys2Proof.Machine.execLdMemNnHl nn s
  | .ldHlMemNn nn => Sys2Proof.Machine.execLdHlMemNn nn s
  | .ldMemNnA nn => Sys2Proof.Machine.execLdMemNnA nn s
  | .ldAMemNn nn => Sys2Proof.Machine.execLdAMemNn nn s
  | .daa => Sys2Proof.Machine.execDaa s
  | .cpl => Sys2Proof.Machine.execCpl s
  | .scf => Sys2Proof.Machine.execScf s
  | .ccf => Sys2Proof.Machine.execCcf s
  | .ldRR r r' => Sys2Proof.Machine.execLdRR r r' s
  | .ldRMemHl r => Sys2Proof.Machine.execLdRMemHl r s
  | .ldMemHlR r => Sys2Proof.Machine.execLdMemHlR r s
  | .halt => Sys2Proof.Machine.execHalt s
  | .addAR r => Sys2Proof.Machine.execAddAR r s
  | .addAMemHl => Sys2Proof.Machine.execAddAMemHl s
  | .addAN n => Sys2Proof.Machine.execAddAN n s
  | .adcAR r => Sys2Proof.Machine.execAdcAR r s
  | .adcAMemHl => Sys2Proof.Machine.execAdcAMemHl s
  | .adcAN n => Sys2Proof.Machine.execAdcAN n s
  | .subR r => Sys2Proof.Machine.execSubR r s
  | .subMemHl => Sys2Proof.Machine.execSubMemHl s
  | .subN n => Sys2Proof.Machine.execSubN n s
  | .sbcAR r => Sys2Proof.Machine.execSbcAR r s
  | .sbcAMemHl => Sys2Proof.Machine.execSbcAMemHl s
  | .sbcAN n => Sys2Proof.Machine.execSbcAN n s
  | .andR r => Sys2Proof.Machine.execAndR r s
  | .andMemHl => Sys2Proof.Machine.execAndMemHl s
  | .andN n => Sys2Proof.Machine.execAndN n s
  | .xorR r => Sys2Proof.Machine.execXorR r s
  | .xorMemHl => Sys2Proof.Machine.execXorMemHl s
  | .xorN n => Sys2Proof.Machine.execXorN n s
  | .orR r => Sys2Proof.Machine.execOrR r s
  | .orMemHl => Sys2Proof.Machine.execOrMemHl s
  | .orN n => Sys2Proof.Machine.execOrN n s
  | .cpR r => Sys2Proof.Machine.execCpR r s
  | .cpMemHl => Sys2Proof.Machine.execCpMemHl s
  | .cpN n => Sys2Proof.Machine.execCpN n s
  | .retCc cc => Sys2Proof.Machine.execRetCc cc s
  | .popQq q => Sys2Proof.Machine.execPopQq q s
  | .jpCcNn cc nn => Sys2Proof.Machine.execJpCcNn cc nn s
  | .jpNn nn => Sys2Proof.Machine.execJpNn nn s
  | .callCcNn cc nn => Sys2Proof.Machine.execCallCcNn cc nn s
  | .pushQq q => Sys2Proof.Machine.execPushQq q s
  | .rst0 => Sys2Proof.Machine.execRst0 s
  | .rstP y => Sys2Proof.Machine.execRstP y s
  | .ret => Sys2Proof.Machine.execRet s
  | .cbEscape => Sys2Proof.Machine.execCbEscape s
  | .callNn nn => Sys2Proof.Machine.execCallNn nn s
  | .outNA n => Sys2Proof.Machine.execOutNA n s
  | .exx => Sys2Proof.Machine.execExx s
  | .inAN n => Sys2Proof.Machine.execInAN n s
  | .ddPrefix => Sys2Proof.Machine.execDdPrefix s
  | .exMemSpHl => Sys2Proof.Machine.execExMemSpHl s
  | .jpHl => Sys2Proof.Machine.execJpHl s
  | .exDeHl => Sys2Proof.Machine.execExDeHl s
  | .edEscape => Sys2Proof.Machine.execEdEscape s
  | .di => Sys2Proof.Machine.execDi s
  | .ldSpHl => Sys2Proof.Machine.execLdSpHl s
  | .ei => Sys2Proof.Machine.execEi s
  | .fdPrefix => Sys2Proof.Machine.execFdPrefix s
  | .addIxRr j p => Sys2Proof.Machine.execAddIxRr j p s
  | .ldIxNn j nn => Sys2Proof.Machine.execLdIxNn j nn s
  | .ldMemNnIx j nn => Sys2Proof.Machine.execLdMemNnIx j nn s
  | .incIx j => Sys2Proof.Machine.execIncIx j s
  | .ldIxMemNn j nn => Sys2Proof.Machine.execLdIxMemNn j nn s
  | .decIx j => Sys2Proof.Machine.execDecIx j s
  | .incIxHalf j h => Sys2Proof.Machine.execIncIxHalf j h s
  | .decIxHalf j h => Sys2Proof.Machine.execDecIxHalf j h s
  | .ldIxHalfN j h n => Sys2Proof.Machine.execLdIxHalfN j h n s
  | .incMemIx j d => Sys2Proof.Machine.execIncMemIx j d s
  | .decMemIx j d => Sys2Proof.Machine.execDecMemIx j d s
  | .ldMemIxN j d n => Sys2Proof.Machine.execLdMemIxN j d n s
  | .ldXX j x x' => Sys2Proof.Machine.execLdXX j x x' s
  | .ldRMemIx j r d => Sys2Proof.Machine.execLdRMemIx j r d s
  | .ldMemIxR j d r => Sys2Proof.Machine.execLdMemIxR j d r s
  | .addAIxHalf j h => Sys2Proof.Machine.execAddAIxHalf j h s
  | .addAMemIx j d => Sys2Proof.Machine.execAddAMemIx j d s
  | .adcAIxHalf j h => Sys2Proof.Machine.execAdcAIxHalf j h s
  | .adcAMemIx j d => Sys2Proof.Machine.execAdcAMemIx j d s
  | .subIxHalf j h => Sys2Proof.Machine.execSubIxHalf j h s
  | .subMemIx j d => Sys2Proof.Machine.execSubMemIx j d s
  | .sbcAIxHalf j h => Sys2Proof.Machine.execSbcAIxHalf j h s
  | .sbcAMemIx j d => Sys2Proof.Machine.execSbcAMemIx j d s
  | .andIxHalf j h => Sys2Proof.Machine.execAndIxHalf j h s
  | .andMemIx j d => Sys2Proof.Machine.execAndMemIx j d s
  | .xorIxHalf j h => Sys2Proof.Machine.execXorIxHalf j h s
  | .xorMemIx j d => Sys2Proof.Machine.execXorMemIx j d s
  | .orIxHalf j h => Sys2Proof.Machine.execOrIxHalf j h s
  | .orMemIx j d => Sys2Proof.Machine.execOrMemIx j d s
  | .cpIxHalf j h => Sys2Proof.Machine.execCpIxHalf j h s
  | .cpMemIx j d => Sys2Proof.Machine.execCpMemIx j d s
  | .cbEscapeIndexed j => Sys2Proof.Machine.execCbEscapeIndexed j s
  | .popIx j => Sys2Proof.Machine.execPopIx j s
  | .exMemSpIx j => Sys2Proof.Machine.execExMemSpIx j s
  | .pushIx j => Sys2Proof.Machine.execPushIx j s
  | .jpIx j => Sys2Proof.Machine.execJpIx j s
  | .ldSpIx j => Sys2Proof.Machine.execLdSpIx j s
  | .prefixDiscarded j op => Sys2Proof.Machine.execPrefixDiscarded j op s
  | .rlcR r => Sys2Proof.Machine.execRlcR r s
  | .rlcMemHl => Sys2Proof.Machine.execRlcMemHl s
  | .rrcR r => Sys2Proof.Machine.execRrcR r s
  | .rrcMemHl => Sys2Proof.Machine.execRrcMemHl s
  | .rlR r => Sys2Proof.Machine.execRlR r s
  | .rlMemHl => Sys2Proof.Machine.execRlMemHl s
  | .rrR r => Sys2Proof.Machine.execRrR r s
  | .rrMemHl => Sys2Proof.Machine.execRrMemHl s
  | .slaR r => Sys2Proof.Machine.execSlaR r s
  | .slaMemHl => Sys2Proof.Machine.execSlaMemHl s
  | .sraR r => Sys2Proof.Machine.execSraR r s
  | .sraMemHl => Sys2Proof.Machine.execSraMemHl s
  | .sllR r => Sys2Proof.Machine.execSllR r s
  | .sllMemHl => Sys2Proof.Machine.execSllMemHl s
  | .srlR r => Sys2Proof.Machine.execSrlR r s
  | .srlMemHl => Sys2Proof.Machine.execSrlMemHl s
  | .bitR b r => Sys2Proof.Machine.execBitR b r s
  | .bitMemHl b => Sys2Proof.Machine.execBitMemHl b s
  | .resR b r => Sys2Proof.Machine.execResR b r s
  | .resMemHl b => Sys2Proof.Machine.execResMemHl b s
  | .setR b r => Sys2Proof.Machine.execSetR b r s
  | .setMemHl b => Sys2Proof.Machine.execSetMemHl b s
  | .rlcMemIx j d => Sys2Proof.Machine.execRlcMemIx j d s
  | .rrcMemIx j d => Sys2Proof.Machine.execRrcMemIx j d s
  | .rlMemIx j d => Sys2Proof.Machine.execRlMemIx j d s
  | .rrMemIx j d => Sys2Proof.Machine.execRrMemIx j d s
  | .slaMemIx j d => Sys2Proof.Machine.execSlaMemIx j d s
  | .sraMemIx j d => Sys2Proof.Machine.execSraMemIx j d s
  | .sllMemIx j d => Sys2Proof.Machine.execSllMemIx j d s
  | .srlMemIx j d => Sys2Proof.Machine.execSrlMemIx j d s
  | .bitMemIx b j d => Sys2Proof.Machine.execBitMemIx b j d s
  | .resMemIx b j d => Sys2Proof.Machine.execResMemIx b j d s
  | .setMemIx b j d => Sys2Proof.Machine.execSetMemIx b j d s
  | .idxCbOther j d op => Sys2Proof.Machine.execIdxCbOther j d op s
  | .sbcHlRr p => Sys2Proof.Machine.execSbcHlRr p s
  | .adcHlRr p => Sys2Proof.Machine.execAdcHlRr p s
  | .ldMemNnRr p nn => Sys2Proof.Machine.execLdMemNnRr p nn s
  | .ldRrMemNn p nn => Sys2Proof.Machine.execLdRrMemNn p nn s
  | .neg => Sys2Proof.Machine.execNeg s
  | .ldAI => Sys2Proof.Machine.execLdAI s
  | .rrd => Sys2Proof.Machine.execRrd s
  | .rld => Sys2Proof.Machine.execRld s
  | .ldi => Sys2Proof.Machine.execLdi s
  | .cpi => Sys2Proof.Machine.execCpi s
  | .ldd => Sys2Proof.Machine.execLdd s
  | .cpd => Sys2Proof.Machine.execCpd s
  | .ldir => Sys2Proof.Machine.execLdir s
  | .cpir => Sys2Proof.Machine.execCpir s
  | .lddr => Sys2Proof.Machine.execLddr s
  | .cpdr => Sys2Proof.Machine.execCpdr s
  | .edOther op => Sys2Proof.Machine.execEdOther op s

end Sys2Proof.Machine
end

