-- ==== Sys2Proof/Machine/HostPort.lean ====
section
/-! DEFINITION. What the host may do to the block between steps (60_exceptions.md R420 to R424), and the placing of code. -/

namespace Sys2Proof.Machine

/-- The external stop, allowed between any two steps (R423; log 18). -/
def State.hostStop (s : State) : State := s.stop

/-- Bytes written from an address upward. -/
def Memory.putBytes : Memory → Nat → List Byte → Memory
  | m, _, [] => m
  | m, a, v :: rest => Memory.putBytes (m.put a v) (a + 1) rest

/-- A bulk load (R420, 20_memory.md R83): before the first step only, and wholly inside memory, else not accepted. -/
def State.hostLoad (s : State) (offset : Nat) (bytes : List Byte) : Option State :=
  if s.starting && offset + bytes.length ≤ s.cfg.ramSize then
    some { s with mem := s.mem.putBytes offset bytes }
  else none

/-- Bytes stored at an address and upward, modulo 65536, those outside memory left out. -/
def State.putCode (s : State) : Word → List Byte → State
  | _, [] => s
  | a, v :: rest =>
    State.putCode (if s.byteOk a then { s with mem := s.mem.put a.toNat v } else s) (a + 1) rest

end Sys2Proof.Machine
end

