-- ==== Sys2Proof/Machine/Step.lean ====
section
/-! DEFINITION. The step (40_instruction_cycle.md R130), and the placing of an instruction where the step fetches. -/

namespace Sys2Proof.Machine

/-- One call of `execute_instruction`: the cycle, then the operation of the fetched instruction (R130). -/
def step (s : State) : Host.Outcome State Fault Refusal :=
  match cycle s with
  | .notRunning => .refused .notRunning
  | .stopped s' => .next s'
  | .fault e => .fault e
  | .run i s' => exec i s'

/-- `s` with the bytes of a table word stored at PC and upward, running, and not at the stop sentinel, so that the next
step fetches and runs exactly that instruction (log 16). -/
def State.withFetchWord (s : State) (nbits w : Nat) : State :=
  State.putCode { s with running := true, starting := s.starting || s.pc = 0x0000 } s.pc (tableBytes nbits w)

end Sys2Proof.Machine
end

