-- ==== Sys2Proof/Safety.lean ====
section
/-! DEFINITION. What claims are stated in: the invariant of every step, the driver loop and the end of a run
(40_instruction_cycle.md R139), and the ways to say what a state keeps. -/

namespace Sys2Proof.Machine

/-- Every listed address is inside memory. -/
def Memory.inside (m : Memory) (size : Nat) : Bool := m.all fun cell => cell.1 < size

/-- The invariant between steps: the parameters are legal (00_scope.md R7), memory is in canonical form and inside
`RAM_SIZE`, the prefix latch is NONE (10_state.md R35), and I and R hold `0x00` (R27). -/
abbrev State.Inv (s : State) : Prop :=
  s.cfg.valid = true ∧ s.mem.wf = true ∧ s.mem.inside s.cfg.ramSize = true ∧ s.latch = .none ∧
  s.i = 0x00 ∧ s.r = 0x00

/-- The full address space of every example of the spec: `RAM_SIZE = 0x10000` (20_memory.md R60). -/
abbrev State.FullRam (s : State) : Prop := s.cfg.ramSize = 0x10000

/-- The driver loop `while system.running`: at most `k` steps, none once `running` is false (60_exceptions.md R421). -/
def drive : Nat → State → Result
  | 0, s => .next s
  | k + 1, s =>
    if s.running then
      match step s with
      | .next s' => drive k s'
      | .fault e => .fault e
      | .refused r => .refused r
    else .next s

/-- A run of at most `k` steps that ends stopped in `t`, which is then the final state (R139). -/
def StopsWithin (k : Nat) (s t : State) : Prop := drive k s = .next t ∧ t.running = false

/-- `t` is `s` but for the byte at `a`, which is `v`; every other byte of memory reads as before. -/
def StoresByte (s t : State) (a : Word) (v : Byte) : Prop :=
  t = { s with mem := t.mem } ∧ t.byteAt a = v ∧ ∀ b : Word, b ≠ a → t.byteAt b = s.byteAt b

/-- `t` is `s` but for the bytes at `a` and `a + 1`, which hold `v` low byte first; every other byte of memory reads as
before. -/
def StoresWord (s t : State) (a v : Word) : Prop :=
  t = { s with mem := t.mem } ∧ t.byteAt a = loByte v ∧ t.byteAt (a + 1) = hiByte v ∧
  ∀ b : Word, b ≠ a → b ≠ a + 1 → t.byteAt b = s.byteAt b

/-! ## The ways an instruction can end, as claims say them -/

/-- `i` reads the byte at `a` and goes on to `k` of it; outside memory it faults (20_memory.md R62). -/
def ReadsByte (i : Instr) (s : State) (a : Word) (k : Byte → State) : Prop :=
  if a.toNat < s.cfg.ramSize then exec i s = .next (k (s.byteAt a)) else exec i s = .fault (.memoryOutOfRange a)

/-- `i` reads the word at `a` and goes on to `k` of it; outside memory it faults (R64, R66). -/
def ReadsWord (i : Instr) (s : State) (a : Word) (k : Word → State) : Prop :=
  if a.toNat + 1 < s.cfg.ramSize ∧ a ≠ 0xFFFF then exec i s = .next (k (joinBytes (s.byteAt a) (s.byteAt (a + 1))))
  else exec i s = .fault (.memoryOutOfRange a)

/-- `i` stores the byte `v` at `a` and does nothing else; outside memory it faults (R63). -/
def WritesByte (i : Instr) (s : State) (a : Word) (v : Byte) : Prop :=
  if a.toNat < s.cfg.ramSize then ∃ t, exec i s = .next t ∧ StoresByte s t a v
  else exec i s = .fault (.memoryOutOfRange a)

/-- `i` stores the word `v` at `a` and does nothing else; outside memory it faults (R65, R66). -/
def WritesWord (i : Instr) (s : State) (a v : Word) : Prop :=
  if a.toNat + 1 < s.cfg.ramSize ∧ a ≠ 0xFFFF then ∃ t, exec i s = .next t ∧ StoresWord s t a v
  else exec i s = .fault (.memoryOutOfRange a)

/-- `i` replaces the byte `v` at `a` by `new v`, sets F to `flags v`, and does nothing else; outside memory it faults. -/
def ModifiesByte (i : Instr) (s : State) (a : Word) (new flags : Byte → Byte) : Prop :=
  if a.toNat < s.cfg.ramSize then
    ∃ t, exec i s = .next t ∧
      StoresByte { s with main := { s.main with f := flags (s.byteAt a) } } t a (new (s.byteAt a))
  else exec i s = .fault (.memoryOutOfRange a)

/-! ## Flags, computed from the arithmetic and not from the tables -/

/-- F from its eight flags, S first (10_state.md R30). -/
def flagByte (s z y h x pv n c : Bool) : Byte :=
  flagIf s 0x80 ||| flagIf z 0x40 ||| flagIf y 0x20 ||| flagIf h 0x10 |||
  flagIf x 0x08 ||| flagIf pv 0x04 ||| flagIf n 0x02 ||| flagIf c 0x01

/-- F with S, Z, Y and X from an 8-bit result, the other four as given. -/
def resultFlags (new : Byte) (h pv n c : Bool) : Byte :=
  flagByte (new.getLsbD 7) (new = 0) (new.getLsbD 5) h (new.getLsbD 3) pv n c

/-- An even number of ones. -/
def evenParity (b : Byte) : Bool := (List.range 8).countP (fun k => b.getLsbD k) % 2 = 0

/-- F of an 8-bit addition with carry in, in the operand form of 41_flag_tables.md R169. -/
def sumFlags (a v : Byte) (c : Bool) : Byte :=
  let r := a.toNat + v.toNat + c.toNat
  let signed : Int := a.toInt + v.toInt + c.toNat
  resultFlags (BitVec.ofNat 8 r) (15 < a.toNat % 16 + v.toNat % 16 + c.toNat) (signed < -128 || 127 < signed) false
    (255 < r)

/-- F of an 8-bit subtraction with borrow in, in the operand form of R169. -/
def differenceFlags (a v : Byte) (c : Bool) : Byte :=
  let signed : Int := a.toInt - v.toInt - c.toNat
  resultFlags (BitVec.ofInt 8 (a.toNat - v.toNat - c.toNat)) (a.toNat % 16 < v.toNat % 16 + c.toNat)
    (signed < -128 || 127 < signed) true (a.toNat < v.toNat + c.toNat)

/-- F of a logic operation with result `new` (44_alu8.md R254 to R256). -/
def logicFlags (new : Byte) (h : Bool) : Byte := resultFlags new h (evenParity new) false false

/-- F of `ADC HL` (45_alu16.md R291): carries out of bits 11 and 15, signed overflow of 16 bits. -/
def sumFlags16 (x v : Word) (c : Bool) : Byte :=
  let r := x.toNat + v.toNat + c.toNat
  let new : Word := BitVec.ofNat 16 r
  let signed : Int := x.toInt + v.toInt + c.toNat
  flagByte (new.getLsbD 15) (new = 0) (new.getLsbD 13) (4095 < x.toNat % 4096 + v.toNat % 4096 + c.toNat)
    (new.getLsbD 11) (signed < -32768 || 32767 < signed) false (65535 < r)

/-- F of `SBC HL` (R292): borrows into bit 12 and out of bit 15, signed overflow of 16 bits. -/
def differenceFlags16 (x v : Word) (c : Bool) : Byte :=
  let new : Word := BitVec.ofInt 16 (x.toNat - v.toNat - c.toNat)
  let signed : Int := x.toInt - v.toInt - c.toNat
  flagByte (new.getLsbD 15) (new = 0) (new.getLsbD 13) (x.toNat % 4096 < v.toNat % 4096 + c.toNat)
    (new.getLsbD 11) (signed < -32768 || 32767 < signed) true (x.toNat < v.toNat + c.toNat)

/-! ## The forms of a family -/

/-- The five operand forms of an accumulator operation (44_alu8.md R258): `effect s v` is what it does with operand `v`. -/
def AluForms (reg : Reg8 → Instr) (memHl : Instr) (imm : Byte → Instr) (half : IdxReg → Half → Instr)
    (memIx : IdxReg → Byte → Instr) (effect : State → Byte → State) : Prop :=
  ∀ s : State,
    (∀ r, exec (reg r) s = .next (effect s (s.getR8 r))) ∧
    ReadsByte memHl s s.hl (effect s) ∧
    (∀ n, exec (imm n) s = .next (effect s n)) ∧
    (∀ j h, exec (half j h) s = .next (effect s (s.getHalf j h))) ∧
    ∀ j d, ReadsByte (memIx j d) s (s.ea j d) (effect s)

/-- The three operand forms of a CB operation that writes back (46_rotate_shift_bit.md R305, R306): `new` and `flags` are
the value written back and the new F, of the operand and of the old F. -/
def CbForms (reg : Reg8 → Instr) (memHl : Instr) (memIx : IdxReg → Byte → Instr) (new flags : Byte → Byte → Byte) :
    Prop :=
  ∀ s : State, s.mem.wf = true →
    (∀ r, ∃ t, exec (reg r) s = .next t ∧ t.getR8 r = new s.main.f (s.getR8 r) ∧
      t.main.f = flags s.main.f (s.getR8 r) ∧ (∀ q, q ≠ r → t.getR8 q = s.getR8 q) ∧ t = { s with main := t.main }) ∧
    ModifiesByte memHl s s.hl (new s.main.f) (flags s.main.f) ∧
    ∀ j d, ModifiesByte (memIx j d) s (s.ea j d) (new s.main.f) (flags s.main.f)

/-- A rotate or shift of the CB regime, by arithmetic (46_rotate_shift_bit.md section 3): `new c v` is the result for the
operand `v` and the old carry `c`, `out v` the bit shifted out; S, Z, Y, X and parity come from the result, H = N = 0. -/
def RotateForms (reg : Reg8 → Instr) (memHl : Instr) (memIx : IdxReg → Byte → Instr) (new : Nat → Nat → Nat)
    (out : Nat → Bool) : Prop :=
  CbForms reg memHl memIx (fun f v => BitVec.ofNat 8 (new (f.toNat % 2) v.toNat)) fun f v =>
    let n : Byte := BitVec.ofNat 8 (new (f.toNat % 2) v.toNat)
    resultFlags n false (evenParity n) false (out v.toNat)

/-- The state after an accumulator rotate with result `new` and the bit `out` rotated out (section 1). -/
def State.accRotated (s : State) (new : Nat) (out : Bool) : State :=
  let n : Byte := BitVec.ofNat 8 new
  { s with
    main := { s.main with
      a := n, f := flagByte s.flagS s.flagZ (n.getLsbD 5) false (n.getLsbD 3) s.flagPV false out } }

/-- The word of memory at `a`, low byte first, is inside memory (20_memory.md R66). -/
abbrev State.WordInside (s : State) (a : Word) : Prop := a.toNat + 1 < s.cfg.ramSize ∧ a ≠ 0xFFFF

/-- The bytes lie in memory from `a` upward, modulo 65536. -/
def State.HoldsAt (s : State) (a : Word) (bytes : List Byte) : Prop :=
  ∀ k (h : k < bytes.length),
    (a + BitVec.ofNat 16 k).toNat < s.cfg.ramSize ∧ s.byteAt (a + BitVec.ofNat 16 k) = bytes[k]

/-- A step fetches: the machine runs, and the termination check does not fire (40_instruction_cycle.md R130, R131). -/
abbrev State.Fetches (s : State) : Prop := s.running = true ∧ (s.pc ≠ 0x0000 ∨ s.starting = true)

/-! ## What an instruction may write, for the frames of the whole machine

An escape row continues in another regime (log 15), so it may write what any row of that regime may. -/

/-- The instructions that write F (10_state.md R33). -/
def writesF : Instr → Bool
  | .addHlRr _ | .incR _ | .incMemHl | .decR _ | .decMemHl | .rlca | .rrca | .rla | .rra | .exAfAf | .daa | .cpl
  | .scf | .ccf | .addAR _ | .addAMemHl | .addAN _ | .adcAR _ | .adcAMemHl | .adcAN _ | .subR _ | .subMemHl
  | .subN _ | .sbcAR _ | .sbcAMemHl | .sbcAN _ | .andR _ | .andMemHl | .andN _ | .xorR _ | .xorMemHl | .xorN _
  | .orR _ | .orMemHl | .orN _ | .cpR _ | .cpMemHl | .cpN _ | .cbEscape | .edEscape | .addIxRr _ _ | .incIxHalf _ _
  | .decIxHalf _ _ | .incMemIx _ _ | .decMemIx _ _ | .addAIxHalf _ _ | .addAMemIx _ _ | .adcAIxHalf _ _
  | .adcAMemIx _ _ | .subIxHalf _ _ | .subMemIx _ _ | .sbcAIxHalf _ _ | .sbcAMemIx _ _ | .andIxHalf _ _
  | .andMemIx _ _ | .xorIxHalf _ _ | .xorMemIx _ _ | .orIxHalf _ _ | .orMemIx _ _ | .cpIxHalf _ _ | .cpMemIx _ _
  | .cbEscapeIndexed _ | .rlcR _ | .rlcMemHl | .rrcR _ | .rrcMemHl | .rlR _ | .rlMemHl | .rrR _ | .rrMemHl | .slaR _
  | .slaMemHl | .sraR _ | .sraMemHl | .sllR _ | .sllMemHl | .srlR _ | .srlMemHl | .bitR _ _ | .bitMemHl _
  | .rlcMemIx _ _ | .rrcMemIx _ _ | .rlMemIx _ _ | .rrMemIx _ _ | .slaMemIx _ _ | .sraMemIx _ _ | .sllMemIx _ _
  | .srlMemIx _ _ | .bitMemIx _ _ _ | .sbcHlRr _ | .adcHlRr _ | .neg | .ldAI | .rrd | .rld | .ldi | .cpi | .ldd
  | .cpd | .ldir | .cpir | .lddr | .cpdr => true
  | .popQq q => q = .af
  | _ => false

/-- The instructions that can write memory (20_memory.md R68). -/
def writesMemory : Instr → Bool
  | .ldMemBcA | .ldMemDeA | .incMemHl | .decMemHl | .ldMemHlN _ | .ldMemNnHl _ | .ldMemNnA _ | .ldMemHlR _
  | .callCcNn _ _ | .pushQq _ | .cbEscape | .callNn _ | .exMemSpHl | .edEscape | .ldMemNnIx _ _ | .incMemIx _ _
  | .decMemIx _ _ | .ldMemIxN _ _ _ | .ldMemIxR _ _ _ | .cbEscapeIndexed _ | .exMemSpIx _ | .pushIx _ | .rlcMemHl
  | .rrcMemHl | .rlMemHl | .rrMemHl | .slaMemHl | .sraMemHl | .sllMemHl | .srlMemHl | .resMemHl _ | .setMemHl _
  | .rlcMemIx _ _ | .rrcMemIx _ _ | .rlMemIx _ _ | .rrMemIx _ _ | .slaMemIx _ _ | .sraMemIx _ _ | .sllMemIx _ _
  | .srlMemIx _ _ | .resMemIx _ _ _ | .setMemIx _ _ _ | .ldMemNnRr _ _ | .rrd | .rld | .ldi | .ldd | .ldir | .lddr
  => true
  | _ => false

/-- The instructions that write PC in their operation (47_control_flow.md), and the rows that fetch or push back. -/
def writesPc : Instr → Bool
  | .djnz _ | .jr _ | .jrCc _ _ | .retCc _ | .jpCcNn _ _ | .jpNn _ | .callCcNn _ _ | .ret | .cbEscape | .callNn _
  | .jpHl | .edEscape | .cbEscapeIndexed _ | .jpIx _ | .prefixDiscarded _ _ => true
  | _ => false

/-- The instructions that write SP (10_state.md R25). -/
def writesSp : Instr → Bool
  | .retCc _ | .popQq _ | .callCcNn _ _ | .pushQq _ | .ret | .callNn _ | .edEscape | .ldSpHl | .popIx _ | .pushIx _
  | .ldSpIx _ => true
  | .ldRrNn p _ | .incRr p | .decRr p | .ldRrMemNn p _ => p = .sp
  | _ => false

/-- The instructions that write the index register `j` (R24). -/
def writesIdx (j : IdxReg) : Instr → Bool
  | .addIxRr k _ | .ldIxNn k _ | .incIx k | .ldIxMemNn k _ | .decIx k | .incIxHalf k _ | .decIxHalf k _
  | .ldIxHalfN k _ _ | .popIx k | .exMemSpIx k => j = k
  | .ldXX k x _ => j = k && x.isHalf
  | _ => false

/-- The two registers of a pair. -/
def pairHas : Pair → Reg8 → Bool
  | .bc, r => r = .b || r = .c
  | .de, r => r = .d || r = .e
  | .hl, r => r = .h || r = .l
  | .sp, _ => false

/-- The plain registers of a pair of PUSH and POP. -/
def pairQHas : PairQ → Reg8 → Bool
  | .bc, r => r = .b || r = .c
  | .de, r => r = .d || r = .e
  | .hl, r => r = .h || r = .l
  | .af, r => r = .a

/-- The plain register that an `x8` operand names, if it is not an index half. -/
def regXIs : RegX → Reg8 → Bool
  | .b, r => r = .b
  | .c, r => r = .c
  | .d, r => r = .d
  | .e, r => r = .e
  | .hi, _ | .lo, _ => false
  | .a, r => r = .a

/-- The instructions that write the plain register `r` of the main set. -/
def writesReg (r : Reg8) : Instr → Bool
  | .ldAMemBc | .ldAMemDe | .rlca | .rrca | .rla | .rra | .exAfAf | .ldAMemNn _ | .daa | .cpl | .addAR _
  | .addAMemHl | .addAN _ | .adcAR _ | .adcAMemHl | .adcAN _ | .subR _ | .subMemHl | .subN _ | .sbcAR _ | .sbcAMemHl
  | .sbcAN _ | .andR _ | .andMemHl | .andN _ | .xorR _ | .xorMemHl | .xorN _ | .orR _ | .orMemHl | .orN _ | .inAN _
  | .addAIxHalf _ _ | .addAMemIx _ _ | .adcAIxHalf _ _ | .adcAMemIx _ _ | .subIxHalf _ _ | .subMemIx _ _
  | .sbcAIxHalf _ _ | .sbcAMemIx _ _ | .andIxHalf _ _ | .andMemIx _ _ | .xorIxHalf _ _ | .xorMemIx _ _
  | .orIxHalf _ _ | .orMemIx _ _ | .neg | .ldAI | .rrd | .rld => r = .a
  | .addHlRr _ | .ldHlMemNn _ | .exMemSpHl | .sbcHlRr _ | .adcHlRr _ => r = .h || r = .l
  | .incR k | .decR k | .ldRN k _ | .ldRR k _ | .ldRMemHl k | .ldRMemIx _ k _ | .rlcR k | .rrcR k | .rlR k | .rrR k
  | .slaR k | .sraR k | .sllR k | .srlR k | .resR _ k | .setR _ k => r = k
  | .ldRrNn p _ | .incRr p | .decRr p | .ldRrMemNn p _ => pairHas p r
  | .popQq q => pairQHas q r
  | .ldXX _ x _ => regXIs x r
  | .djnz _ => r = .b
  | .exDeHl => r = .d || r = .e || r = .h || r = .l
  | .exx | .ldi | .ldd | .ldir | .lddr => r ≠ .a
  | .cpi | .cpd | .cpir | .cpdr => r = .b || r = .c || r = .h || r = .l
  | .cbEscape | .edEscape => true
  | _ => false

/-- The instructions whose encoding ends in a 16-bit immediate (30_encoding.md R99, formats with NN). -/
def hasImm16 : Instr → Bool
  | .ldRrNn _ _ | .ldMemNnHl _ | .ldHlMemNn _ | .ldMemNnA _ | .ldAMemNn _ | .jpCcNn _ _ | .jpNn _ | .callCcNn _ _
  | .callNn _ | .ldIxNn _ _ | .ldMemNnIx _ _ | .ldIxMemNn _ _ | .ldMemNnRr _ _ | .ldRrMemNn _ _ => true
  | _ => false

end Sys2Proof.Machine
end

