-- ==== Sys2Proof/Certificates/Slice0/Obligations.lean ====
section
/-! DEFINITION. The statements for the provers, each from the numbered rules of spec/ that its docstring names. Where a
rule is a decision of the spec (92_eei_decisions.md, "D<n>") or general knowledge by its own mark, the docstring says so.
"Faults: D3" marks the clauses that an access outside memory faults, which is the decision D3 of the spec (log 7). -/

open Sys2Proof Sys2Proof.Machine

/-! ## Reset, the invariant, the host -/

/-- 70_reset_and_hazards.md R441: every element at construction, for any parameters. `running` and `starting` rest on the
decision D6. -/
def Obligations.ResetWholeState : Prop :=
  ∀ cfg : Config,
    let s := State.construct cfg
    s.af = 0xFFFF ∧ s.bc = 0x00FF ∧ s.de = 0x03FF ∧ s.hl = 0x0000 ∧
    s.alt = { a := 0, f := 0, b := 0, c := 0, d := 0, e := 0, h := 0, l := 0 } ∧
    s.ix = 0x0000 ∧ s.iy = 0x0000 ∧ s.sp = 0xF800 ∧ s.pc = cfg.initialPc ∧ s.i = 0x00 ∧ s.r = 0x00 ∧
    s.latch = .none ∧ s.running = true ∧ s.starting = true ∧ ∀ a : Word, s.byteAt a = 0x00

/-- The invariant holds at construction with legal parameters (00_scope.md R7), and so at `State.reset`. -/
def Obligations.ResetMeetsInvariant : Prop :=
  (∀ cfg : Config, cfg.valid = true → (State.construct cfg).Inv) ∧ State.reset.Inv

/-- Every step keeps the invariant: legal parameters, memory canonical and inside `RAM_SIZE`, the latch NONE (10_state.md
R35: "it never persists across instructions"), I = R = 0x00 (R27: no implemented instruction writes them). -/
def Obligations.StepKeepsInvariant : Prop :=
  ∀ s t : State, s.Inv → step s = .next t → t.Inv

/-- 60_exceptions.md R420, 20_memory.md R83: a load before the first step that stays inside memory writes its bytes and
nothing else; any other load is not accepted. R423: the external stop changes `running` only. -/
def Obligations.HostLoadAndStop : Prop :=
  ∀ (s : State) (offset : Nat) (bytes : List Byte), s.mem.wf = true →
    (s.starting = true ∧ offset + bytes.length ≤ s.cfg.ramSize →
      ∃ t, s.hostLoad offset bytes = some t ∧ t = { s with mem := t.mem } ∧ t.mem.wf = true ∧
        (∀ k (h : k < bytes.length), t.mem.get (offset + k) = bytes[k]) ∧
        ∀ a, (a < offset ∨ offset + bytes.length ≤ a) → t.mem.get a = s.mem.get a) ∧
    (¬ (s.starting = true ∧ offset + bytes.length ≤ s.cfg.ramSize) → s.hostLoad offset bytes = none) ∧
    s.hostStop = { s with running := false }

/-! ## Registers, memory, the instruction stream -/

/-- 10_state.md R22: the pairs are views of the halves; a write of a view writes both halves and no other pair; a write of
a register, of F or of an index half leaves every other register, and all else, unchanged. -/
def Obligations.RegisterViews : Prop :=
  ∀ s : State,
    s.bc.toNat = s.main.b.toNat * 256 + s.main.c.toNat ∧ s.de.toNat = s.main.d.toNat * 256 + s.main.e.toNat ∧
    s.hl.toNat = s.main.h.toNat * 256 + s.main.l.toNat ∧ s.af.toNat = s.main.a.toNat * 256 + s.main.f.toNat ∧
    (∀ j, (s.getIx j).toNat = (s.getHalf j .hi).toNat * 256 + (s.getHalf j .lo).toNat) ∧
    (∀ q v, (s.setPairQ q v).getPairQ q = v ∧ (∀ p, p ≠ q → (s.setPairQ q v).getPairQ p = s.getPairQ p) ∧
      s.setPairQ q v = { s with main := (s.setPairQ q v).main }) ∧
    (∀ r v, (s.setR8 r v).getR8 r = v ∧ (∀ q, q ≠ r → (s.setR8 r v).getR8 q = s.getR8 q) ∧
      (s.setR8 r v).main.f = s.main.f ∧ s.setR8 r v = { s with main := (s.setR8 r v).main }) ∧
    (∀ v, (s.setF v).main.f = v ∧ (∀ r, (s.setF v).getR8 r = s.getR8 r) ∧
      s.setF v = { s with main := (s.setF v).main }) ∧
    (∀ j v, (s.setIx j v).getIx j = v ∧ (∀ k, k ≠ j → (s.setIx j v).getIx k = s.getIx k) ∧
      s.setIx j v = { s with ix := (s.setIx j v).ix, iy := (s.setIx j v).iy }) ∧
    ∀ j h v, (s.setHalf j h v).getHalf j h = v ∧ (∀ g, g ≠ h → (s.setHalf j h v).getHalf j g = s.getHalf j g) ∧
      (∀ k, k ≠ j → (s.setHalf j h v).getIx k = s.getIx k) ∧
      s.setHalf j h v = { s with ix := (s.setHalf j h v).ix, iy := (s.setHalf j h v).iy }

/-- 20_memory.md R62, R63: a byte write inside memory is what the next read of that byte gives, changes no other byte and
nothing else; outside memory both accesses fault. Faults: D3. -/
def Obligations.ByteMemory : Prop :=
  ∀ (s : State) (a : Word) (v : Byte), s.mem.wf = true →
    if a.toNat < s.cfg.ramSize then
      s.memRead8 a = .ok (s.byteAt a) ∧
      ∃ t, s.memWrite8 a v = .ok t ∧ t = { s with mem := t.mem } ∧ t.memRead8 a = .ok v ∧
        ∀ b : Word, b ≠ a → t.memRead8 b = s.memRead8 b
    else
      s.memRead8 a = .error (.memoryOutOfRange a) ∧ s.memWrite8 a v = .error (.memoryOutOfRange a)

/-- R64, R65: little-endian words, under the precondition of R66. Faults: D3. -/
def Obligations.WordMemory : Prop :=
  ∀ (s : State) (a v : Word), s.mem.wf = true →
    (s.WordInside a →
      s.memRead16 a = .ok (BitVec.ofNat 16 ((s.byteAt a).toNat + 256 * (s.byteAt (a + 1)).toNat)) ∧
      ∃ t, s.memWrite16 a v = .ok t ∧ t = { s with mem := t.mem } ∧
        (t.byteAt a).toNat = v.toNat % 256 ∧ (t.byteAt (a + 1)).toNat = v.toNat / 256 ∧
        t.memRead16 a = .ok v ∧ ∀ b : Word, b ≠ a → b ≠ a + 1 → t.memRead8 b = s.memRead8 b) ∧
    (¬ s.WordInside a →
      s.memRead16 a = .error (.memoryOutOfRange a) ∧ s.memWrite16 a v = .error (.memoryOutOfRange a))

/-- 30_encoding.md R100, R101: a byte or a little-endian word is read at PC, then PC goes up by one or two modulo 65536; a
fault leaves no next state. A word is one access, so at 0xFFFF it always faults: decision D4. Faults: D3. -/
def Obligations.FetchByteAndWord : Prop :=
  ∀ s : State,
    (if s.pc.toNat < s.cfg.ramSize then
      ∃ t, s.fetch8 = .ok (s.byteAt s.pc, t) ∧ t = { s with pc := t.pc } ∧ t.pc.toNat = (s.pc.toNat + 1) % 65536
    else s.fetch8 = .error (.memoryOutOfRange s.pc)) ∧
    if s.pc.toNat + 1 < s.cfg.ramSize ∧ s.pc ≠ 0xFFFF then
      ∃ t, s.fetch16 = .ok (joinBytes (s.byteAt s.pc) (s.byteAt (s.pc + 1)), t) ∧ t = { s with pc := t.pc } ∧
        t.pc.toNat = (s.pc.toNat + 2) % 65536
    else s.fetch16 = .error (.memoryOutOfRange s.pc)

/-- R102, R103: the displaced address and the target of a relative transfer, modulo 65536 in both directions; PC is
already past the offset. -/
def Obligations.AddressArithmetic : Prop :=
  ∀ (s : State) (e : Byte),
    (∀ j, ((s.ea j e).toNat : Int) = ((s.getIx j).toNat + e.toInt) % 65536) ∧
    (∃ t, exec (.jr e) s = .next t ∧ (t.pc.toNat : Int) = (s.pc.toNat + e.toInt) % 65536) ∧
    (∀ cc, s.condShort cc = true →
      ∃ t, exec (.jrCc cc e) s = .next t ∧ (t.pc.toNat : Int) = (s.pc.toNat + e.toInt) % 65536) ∧
    ∃ t, exec (.djnz e) s = .next t ∧ (t.pc ≠ s.pc → (t.pc.toNat : Int) = (s.pc.toNat + e.toInt) % 65536)

/-! ## Encoding -/

/-- Decoding an encoded well-formed instruction gives it back, whatever bytes follow (30_encoding.md R105 to R124). -/
def Obligations.DecodeEncode : Prop :=
  ∀ (i : Instr) (rest : List Byte), i.wf = true → decode (encode i ++ rest) = .ok (i, rest)

/-- The other direction: what the decoder accepts is a well-formed instruction, and the bytes it took are redundant
prefix bytes and then that instruction's encoding; so the final prefix of a run wins (R113, 40_instruction_cycle.md
R134). -/
def Obligations.DecodedBytesAreCanonical : Prop :=
  ∀ (bytes rest : List Byte) (i : Instr), decode bytes = .ok (i, rest) →
    i.wf = true ∧ ∃ run : List Byte, (∀ b ∈ run, b = 0xDD ∨ b = 0xFD) ∧ bytes = run ++ encode i ++ rest

/-- R124: "There is no other illegal encoding: every other byte sequence decodes to an instruction": a prefix run, an
opcode byte and three more bytes always decode, and to a faulting row only for the encodings of R124. -/
def Obligations.DecodeIsTotal : Prop :=
  ∀ (run : List Byte) (op b1 b2 b3 : Byte) (rest : List Byte), (∀ b ∈ run, b = 0xDD ∨ b = 0xFD) →
    op ≠ 0xDD → op ≠ 0xFD →
    ∃ i left, decode (run ++ op :: b1 :: b2 :: b3 :: rest) = .ok (i, left) ∧
      ((∃ y, i = .rstP y) ↔ run = [] ∧ op &&& 0xC7 = 0xC7 ∧ op ≠ 0xC7) ∧
      ((∃ q, i = .edOther q) ↔ run = [] ∧ op = 0xED ∧ b1 ∉ edImplemented) ∧
      ((∃ j d q, i = .idxCbOther j d q) ↔ run ≠ [] ∧ op = 0xCB ∧ b2 &&& 7 ≠ 6)

/-- Words written out from the `encoding` column of the opcode table, one or more for each regime and each format of
30_encoding.md R99. Opcode values that the source does not print, and the faulting indexed CB row (D13), are the spec's
decisions (log 9). -/
def Obligations.EncodingWords : Prop :=
  decode [0x21, 0x34, 0x12] = .ok (.ldRrNn .hl 0x1234, []) ∧
  decode [0x7E] = .ok (.ldRMemHl .a, []) ∧
  decode [0x76] = .ok (.halt, []) ∧
  decode [0x3E, 0x03] = .ok (.ldRN .a 0x03, []) ∧
  decode [0x20, 0xFE] = .ok (.jrCc .nz 0xFE, []) ∧
  decode [0xFA, 0x00, 0x80] = .ok (.jpCcNn .m 0x8000, []) ∧
  decode [0xF5] = .ok (.pushQq .af, []) ∧
  decode [0xDD, 0x36, 0x05, 0xAA] = .ok (.ldMemIxN .ix 0x05 0xAA, []) ∧
  decode [0xFD, 0x66, 0x01] = .ok (.ldRMemIx .iy .h 0x01, []) ∧
  decode [0xDD, 0x26, 0x9A] = .ok (.ldIxHalfN .ix .hi 0x9A, []) ∧
  decode [0xDD, 0x21, 0x0B, 0x0A] = .ok (.ldIxNn .ix 0x0A0B, []) ∧
  decode [0xDD, 0x65] = .ok (.ldXX .ix .hi .lo, []) ∧
  decode [0xDD, 0xFD, 0x29] = .ok (.addIxRr .iy .idx, []) ∧
  decode [0xDD, 0xEB] = .ok (.prefixDiscarded .ix 0xEB, []) ∧
  decode [0xCB, 0x7F] = .ok (.bitR 7 .a, []) ∧
  decode [0xFD, 0xCB, 0xFF, 0x3E] = .ok (.srlMemIx .iy 0xFF, []) ∧
  decode [0xDD, 0xCB, 0x05, 0x10] = .ok (.idxCbOther .ix 0x05 0x10, []) ∧
  decode [0xED, 0x5B, 0x00, 0x20] = .ok (.ldRrMemNn .de 0x2000, []) ∧
  decode [0xED, 0xB0] = .ok (.ldir, []) ∧
  decode [0xED, 0x5F] = .ok (.edOther 0x5F, [])

/-! ## The step -/

/-- 40_instruction_cycle.md R130, R137: when the bytes at PC decode to an instruction, the step runs it, with PC past its
bytes (00_scope.md R12), `starting` cleared (R132) and the latch NONE (log 14). A 16-bit immediate is one word access
(30_encoding.md R101, decision D4): where it starts at 0xFFFF or does not lie inside memory the step faults. Faults: D3. -/
def Obligations.StepRunsDecoded : Prop :=
  ∀ (s : State) (bytes : List Byte) (i : Instr), s.Fetches → decode bytes = .ok (i, []) →
    let immAt : Word := s.pc + BitVec.ofNat 16 (bytes.length - 2)
    (s.HoldsAt s.pc bytes → (hasImm16 i = true → immAt ≠ 0xFFFF) →
      step s = exec i { s with pc := s.pc + BitVec.ofNat 16 bytes.length, starting := false, latch := .none }) ∧
    (hasImm16 i = true → s.HoldsAt s.pc (bytes.take (bytes.length - 2)) → ¬ s.WordInside immAt →
      step s = .fault (.memoryOutOfRange immAt))

/-- R131: the termination check stops the machine and changes nothing else. -/
def Obligations.StepStopsAtZero : Prop :=
  ∀ s : State, s.running = true → s.pc = 0x0000 → s.starting = false → step s = .next { s with running := false }

/-- R135: a prefix run before an opcode that is not prefixable is discarded in a step of its own, which changes only PC
and `starting`. -/
def Obligations.StepDiscardsPrefix : Prop :=
  ∀ (s : State) (run : List Byte) (op : Byte),
    s.Fetches → s.latch = .none → run ≠ [] → (∀ b ∈ run, b = 0xDD ∨ b = 0xFD) →
    op ∉ ddFdPrefixable → op ≠ 0xDD → op ≠ 0xFD → s.HoldsAt s.pc (run ++ [op]) →
    step s = .next { s with pc := s.pc + BitVec.ofNat 16 run.length, starting := false }

/-- The model's choices for the two requests that have no next state and are no fault of R400: a step asked for while
`running` is false (60_exceptions.md R422, D7; log 6) and an endless prefix run (R136, D23; log 8). -/
def Obligations.StepsWithoutNextState : Prop :=
  (∀ s : State, s.running = false → step s = .refused .notRunning) ∧
  ∀ s : State, s.Fetches → s.FullRam → (∀ a : Word, s.byteAt a = 0xDD ∨ s.byteAt a = 0xFD) →
    step s = .fault .endlessPrefixRun

/-! ## Rules of the whole machine -/

/-- R139, R140, 10_state.md R36: only HALT, RST 0 and a taken return to 0x0000 clear `running` (the termination check
aside, which is no instruction), and nothing sets it. -/
def Obligations.OnlyStopsClearRunning : Prop :=
  ∀ (i : Instr) (s t : State), exec i s = .next t →
    (s.running = true → t.running = false →
      i = .halt ∨ i = .rst0 ∨ ((i = .ret ∨ ∃ cc, i = .retCc cc ∧ s.cond cc = true) ∧ t.pc = 0x0000)) ∧
    (t.running = true → s.running = true)

/-- 10_state.md R23: no instruction writes an alternate register except by exchange, and the two exchanges are
independent. -/
def Obligations.OnlyExchangesTouchAlternates : Prop :=
  ∀ (i : Instr) (s t : State), exec i s = .next t →
    (i ≠ .exAfAf → t.alt.a = s.alt.a ∧ t.alt.f = s.alt.f) ∧
    (i ≠ .exx →
      t.alt.b = s.alt.b ∧ t.alt.c = s.alt.c ∧ t.alt.d = s.alt.d ∧ t.alt.e = s.alt.e ∧ t.alt.h = s.alt.h ∧
      t.alt.l = s.alt.l)

/-- R33: an instruction outside the table of flag writers leaves F unchanged. -/
def Obligations.OnlyListedInstructionsWriteF : Prop :=
  ∀ (i : Instr) (s t : State), writesF i = false → exec i s = .next t → t.main.f = s.main.f

/-- R20, R21: each plain register of the main set changes only by an instruction that has it as a destination. -/
def Obligations.OnlyDestinationsChange : Prop :=
  ∀ (i : Instr) (r : Reg8) (s t : State), writesReg r i = false → exec i s = .next t → t.getR8 r = s.getR8 r

/-- R24, R25: SP and each index register change only by the instructions that write them. -/
def Obligations.OnlyListedInstructionsWriteSpAndIndex : Prop :=
  ∀ (i : Instr) (s t : State), exec i s = .next t →
    (writesSp i = false → t.sp = s.sp) ∧ ∀ j, writesIdx j i = false → t.getIx j = s.getIx j

/-- 20_memory.md R74: an instruction with no memory destination leaves every byte of memory unchanged. -/
def Obligations.OnlyStoresWriteMemory : Prop :=
  ∀ (i : Instr) (s t : State), writesMemory i = false → exec i s = .next t → t.mem = s.mem

/-- 00_scope.md R12: an instruction that writes no PC leaves it where the fetch left it, past the instruction's bytes. -/
def Obligations.OnlyTransfersWritePc : Prop :=
  ∀ (i : Instr) (s t : State), writesPc i = false → exec i s = .next t → t.pc = s.pc

/-- R27, R37, 00_scope.md R7, 20_memory.md R61: no instruction writes I, R, `starting` or the parameters; only the prefix
rows set the latch; only IN and OUT reach the I/O port. -/
def Obligations.SystemStateIsKept : Prop :=
  ∀ (i : Instr) (s t : State), exec i s = .next t →
    t.i = s.i ∧ t.r = s.r ∧ t.starting = s.starting ∧ t.cfg = s.cfg ∧
    (i ≠ .ddPrefix → i ≠ .fdPrefix → t.latch = s.latch) ∧
    ((∀ n, i ≠ .inAN n) → (∀ n, i ≠ .outNA n) → t.ioEvents = s.ioEvents)

/-! ## 8-bit loads -/

/-- 42_load8.md R200, R203: the destination gets the source or the immediate; every other register, F included, and all
else keeps its value. -/
def Obligations.LoadRegister : Prop :=
  ∀ s : State,
    (∀ r r', ∃ t, exec (.ldRR r r') s = .next t ∧ t.getR8 r = s.getR8 r' ∧ (∀ q, q ≠ r → t.getR8 q = s.getR8 q) ∧
      t.main.f = s.main.f ∧ t = { s with main := t.main }) ∧
    (∀ r n, ∃ t, exec (.ldRN r n) s = .next t ∧ t.getR8 r = n ∧ (∀ q, q ≠ r → t.getR8 q = s.getR8 q) ∧
      t.main.f = s.main.f ∧ t = { s with main := t.main }) ∧
    (∀ j x x', ∃ t, exec (.ldXX j x x') s = .next t ∧ t.getX j x = s.getX j x' ∧
      (∀ y, y ≠ x → t.getX j y = s.getX j y) ∧ t.main.h = s.main.h ∧ t.main.l = s.main.l ∧ t.main.f = s.main.f ∧
      (∀ k, k ≠ j → t.getIx k = s.getIx k) ∧ t = { s with main := t.main, ix := t.ix, iy := t.iy }) ∧
    ∀ j h n, ∃ t, exec (.ldIxHalfN j h n) s = .next t ∧ t.getHalf j h = n ∧
      (∀ g, g ≠ h → t.getHalf j g = s.getHalf j g) ∧ (∀ k, k ≠ j → t.getIx k = s.getIx k) ∧
      t = { s with ix := t.ix, iy := t.iy }

/-- R201, R209: the byte at the address goes to the plain register (30_encoding.md R112), and nothing else changes.
Faults: D3. -/
def Obligations.LoadFromMemory : Prop :=
  ∀ s : State,
    (∀ r, ReadsByte (.ldRMemHl r) s s.hl (s.setR8 r)) ∧
    (∀ j r d, ReadsByte (.ldRMemIx j r d) s (s.getIx j + d.signExtend 16) (s.setR8 r)) ∧
    ∀ nn, ReadsByte (.ldAMemNn nn) s nn fun v => { s with main := { s.main with a := v } }

/-- R205 to R208, general knowledge by the spec's own mark: A and the byte at BC or DE. Faults: D3. -/
def Obligations.LoadAIndirect : Prop :=
  ∀ s : State, s.mem.wf = true →
    ReadsByte .ldAMemBc s s.bc (fun v => { s with main := { s.main with a := v } }) ∧
    ReadsByte .ldAMemDe s s.de (fun v => { s with main := { s.main with a := v } }) ∧
    WritesByte .ldMemBcA s s.bc s.main.a ∧ WritesByte .ldMemDeA s s.de s.main.a

/-- R211: `LD A,I`. The flags are the spec's decision D16. -/
def Obligations.LoadAFromI : Prop :=
  ∀ s : State, exec .ldAI s =
    .next { s with main := { s.main with a := s.i, f := resultFlags s.i false false false s.flagC } }

/-- R202, R204, R210: one byte is stored, and nothing else changes. Faults: D3. -/
def Obligations.StoreByte : Prop :=
  ∀ s : State, s.mem.wf = true →
    (∀ r, WritesByte (.ldMemHlR r) s s.hl (s.getR8 r)) ∧
    (∀ j d r, WritesByte (.ldMemIxR j d r) s (s.getIx j + d.signExtend 16) (s.getR8 r)) ∧
    (∀ n, WritesByte (.ldMemHlN n) s s.hl n) ∧
    (∀ j d n, WritesByte (.ldMemIxN j d n) s (s.getIx j + d.signExtend 16) n) ∧
    ∀ nn, WritesByte (.ldMemNnA nn) s nn s.main.a

/-! ## 16-bit loads, exchanges, the stack -/

/-- 43_load16_exchange_stack.md R220, R227: a 16-bit register gets the immediate or HL, IX, IY; nothing else changes. -/
def Obligations.LoadRegister16 : Prop :=
  ∀ s : State,
    (∀ p nn, ∃ t, exec (.ldRrNn p nn) s = .next t ∧ t.getPair p = nn ∧ (∀ q, q ≠ p → t.getPair q = s.getPair q) ∧
      t.af = s.af ∧ t = { s with main := t.main, sp := t.sp }) ∧
    (∀ j nn, ∃ t, exec (.ldIxNn j nn) s = .next t ∧ t.getIx j = nn ∧ (∀ k, k ≠ j → t.getIx k = s.getIx k) ∧
      t = { s with ix := t.ix, iy := t.iy }) ∧
    exec .ldSpHl s = .next { s with sp := joinBytes s.main.l s.main.h } ∧
    ∀ j, exec (.ldSpIx j) s = .next { s with sp := s.getIx j }

/-- R221 to R224: a word of memory to a 16-bit register, and back. Faults: D3. -/
def Obligations.LoadAndStoreWord : Prop :=
  ∀ (s : State) (nn : Word), s.mem.wf = true →
    ReadsWord (.ldHlMemNn nn) s nn s.setHl ∧
    (∀ j, ReadsWord (.ldIxMemNn j nn) s nn (s.setIx j)) ∧
    (∀ p, ReadsWord (.ldRrMemNn p nn) s nn (s.setPair p)) ∧
    WritesWord (.ldMemNnHl nn) s nn s.hl ∧
    (∀ j, WritesWord (.ldMemNnIx j nn) s nn (s.getIx j)) ∧
    ∀ p, WritesWord (.ldMemNnRr p nn) s nn (s.getPair p)

/-- R230 to R232: the three exchanges of registers, register by register. -/
def Obligations.ExchangeRegisters : Prop :=
  ∀ s : State,
    exec .exAfAf s =
      .next { s with
        main := { s.main with a := s.alt.a, f := s.alt.f }, alt := { s.alt with a := s.main.a, f := s.main.f } } ∧
    exec .exx s =
      .next { s with
        main := { s.main with
          b := s.alt.b, c := s.alt.c, d := s.alt.d, e := s.alt.e, h := s.alt.h, l := s.alt.l }
        alt := { s.alt with
          b := s.main.b, c := s.main.c, d := s.main.d, e := s.main.e, h := s.main.h, l := s.main.l } } ∧
    exec .exDeHl s =
      .next { s with main := { s.main with d := s.main.h, e := s.main.l, h := s.main.d, l := s.main.e } }

/-- 10_state.md R42: the two involutions, PUSH then POP into any pair or index register, and CPL twice. -/
def Obligations.AlgebraicLaws : Prop :=
  ∀ s : State, s.mem.wf = true →
    (∃ t, exec .exAfAf s = .next t ∧ exec .exAfAf t = .next s) ∧
    (∃ t, exec .exx s = .next t ∧ exec .exx t = .next s) ∧
    (∀ q q' t, exec (.pushQq q) s = .next t →
      ∃ u, exec (.popQq q') t = .next u ∧ u.getPairQ q' = s.getPairQ q ∧ u.sp = s.sp) ∧
    (∀ j j' t, exec (.pushIx j) s = .next t →
      ∃ u, exec (.popIx j') t = .next u ∧ u.getIx j' = s.getIx j ∧ u.sp = s.sp) ∧
    (∀ q j t, exec (.pushQq q) s = .next t →
      ∃ u, exec (.popIx j) t = .next u ∧ u.getIx j = s.getPairQ q ∧ u.sp = s.sp) ∧
    (∀ j q t, exec (.pushIx j) s = .next t →
      ∃ u, exec (.popQq q) t = .next u ∧ u.getPairQ q = s.getIx j ∧ u.sp = s.sp) ∧
    ∃ t u, exec .cpl s = .next t ∧ exec .cpl t = .next u ∧ u.main.a = s.main.a ∧
      t.flagH = true ∧ t.flagN = true ∧ u.flagH = true ∧ u.flagN = true

/-- R233: HL or the index register and the word at SP change places; SP is unchanged. Faults: D3. -/
def Obligations.ExchangeWithStack : Prop :=
  ∀ s : State, s.mem.wf = true →
    let w := joinBytes (s.byteAt s.sp) (s.byteAt (s.sp + 1))
    (s.WordInside s.sp →
      (∃ t, exec .exMemSpHl s = .next t ∧
        StoresWord { s with main := { s.main with h := s.byteAt (s.sp + 1), l := s.byteAt s.sp } } t s.sp s.hl) ∧
      ∀ j, ∃ t, exec (.exMemSpIx j) s = .next t ∧ StoresWord (s.setIx j w) t s.sp (s.getIx j)) ∧
    (¬ s.WordInside s.sp →
      exec .exMemSpHl s = .fault (.memoryOutOfRange s.sp) ∧
      ∀ j, exec (.exMemSpIx j) s = .fault (.memoryOutOfRange s.sp))

/-- R240, R241: the two stack primitives. Faults: D3. -/
def Obligations.StackPrimitives : Prop :=
  ∀ (s : State) (v : Word), s.mem.wf = true →
    (s.WordInside (s.sp - 2) →
      ∃ t, s.push16 v = .ok t ∧ StoresWord { s with sp := s.sp - 2 } t (s.sp - 2) v) ∧
    (¬ s.WordInside (s.sp - 2) → s.push16 v = .error (.memoryOutOfRange (s.sp - 2))) ∧
    (s.WordInside s.sp →
      s.pop16 = .ok (joinBytes (s.byteAt s.sp) (s.byteAt (s.sp + 1)), { s with sp := s.sp + 2 })) ∧
    (¬ s.WordInside s.sp → s.pop16 = .error (.memoryOutOfRange s.sp))

/-- R242, R243: PUSH and POP of every pair, `POP AF` with all eight bits of F. Faults: D3. -/
def Obligations.PushAndPop : Prop :=
  ∀ s : State, s.mem.wf = true →
    let w := joinBytes (s.byteAt s.sp) (s.byteAt (s.sp + 1))
    (s.WordInside (s.sp - 2) →
      (∀ q, ∃ t, exec (.pushQq q) s = .next t ∧
        StoresWord { s with sp := s.sp - 2 } t (s.sp - 2) (s.getPairQ q)) ∧
      ∀ j, ∃ t, exec (.pushIx j) s = .next t ∧ StoresWord { s with sp := s.sp - 2 } t (s.sp - 2) (s.getIx j)) ∧
    (¬ s.WordInside (s.sp - 2) →
      (∀ q, exec (.pushQq q) s = .fault (.memoryOutOfRange (s.sp - 2))) ∧
      ∀ j, exec (.pushIx j) s = .fault (.memoryOutOfRange (s.sp - 2))) ∧
    (s.WordInside s.sp →
      (∀ q, ∃ t, exec (.popQq q) s = .next t ∧ t.getPairQ q = w ∧ (∀ p, p ≠ q → t.getPairQ p = s.getPairQ p) ∧
        t = { s with main := t.main, sp := s.sp + 2 }) ∧
      ∀ j, exec (.popIx j) s = .next (State.setIx { s with sp := s.sp + 2 } j w)) ∧
    (¬ s.WordInside s.sp →
      (∀ q, exec (.popQq q) s = .fault (.memoryOutOfRange s.sp)) ∧
      ∀ j, exec (.popIx j) s = .fault (.memoryOutOfRange s.sp))

/-! ## 8-bit arithmetic and logic -/

/-- 44_alu8.md R250, R251, with the flags of 41_flag_tables.md R169 (computed from the operands, not from the tables).
Faults: D3. -/
def Obligations.AddAndAdc : Prop :=
  AluForms .addAR .addAMemHl .addAN .addAIxHalf .addAMemIx (fun s v =>
    { s with main := { s.main with a := s.main.a + v, f := sumFlags s.main.a v false } }) ∧
  AluForms .adcAR .adcAMemHl .adcAN .adcAIxHalf .adcAMemIx (fun s v =>
    { s with
      main := { s.main with
        a := BitVec.ofNat 8 (s.main.a.toNat + v.toNat + s.flagC.toNat), f := sumFlags s.main.a v s.flagC } })

/-- R252, R253, with the flags of R169. Faults: D3. -/
def Obligations.SubAndSbc : Prop :=
  AluForms .subR .subMemHl .subN .subIxHalf .subMemIx (fun s v =>
    { s with main := { s.main with a := s.main.a - v, f := differenceFlags s.main.a v false } }) ∧
  AluForms .sbcAR .sbcAMemHl .sbcAN .sbcAIxHalf .sbcAMemIx (fun s v =>
    { s with
      main := { s.main with
        a := BitVec.ofInt 8 (s.main.a.toNat - v.toNat - s.flagC.toNat)
        f := differenceFlags s.main.a v s.flagC } })

/-- R254 to R256: AND sets H, XOR and OR clear it; all three give parity and clear N and C. Faults: D3. -/
def Obligations.LogicOperations : Prop :=
  AluForms .andR .andMemHl .andN .andIxHalf .andMemIx (fun s v =>
    { s with main := { s.main with a := s.main.a &&& v, f := logicFlags (s.main.a &&& v) true } }) ∧
  AluForms .xorR .xorMemHl .xorN .xorIxHalf .xorMemIx (fun s v =>
    { s with main := { s.main with a := s.main.a ^^^ v, f := logicFlags (s.main.a ^^^ v) false } }) ∧
  AluForms .orR .orMemHl .orN .orIxHalf .orMemIx (fun s v =>
    { s with main := { s.main with a := s.main.a ||| v, f := logicFlags (s.main.a ||| v) false } })

/-- R257: CP keeps A and takes Y and X from the operand; the other flags are those of SUB. Faults: D3. -/
def Obligations.Compare : Prop :=
  AluForms .cpR .cpMemHl .cpN .cpIxHalf .cpMemIx (fun s v =>
    let a := s.main.a
    let signed : Int := a.toInt - v.toInt
    { s with
      main := { s.main with
        f := flagByte ((a - v).getLsbD 7) (a = v) (v.getLsbD 5) (a.toNat % 16 < v.toNat % 16) (v.getLsbD 3)
          (signed < -128 || 127 < signed) true (a.toNat < v.toNat) } })

/-- R260, R261: 8-bit INC and DEC in every form; C is kept. Faults: D3. -/
def Obligations.IncrementAndDecrement : Prop :=
  ∀ s : State, s.mem.wf = true →
    let up : Byte → Byte := fun v =>
      resultFlags (v + 1) ((v + 1).toNat % 16 = 0) (v + 1 = 0x80) false s.flagC
    let down : Byte → Byte := fun v =>
      resultFlags (v - 1) ((v - 1).toNat % 16 = 15) (v - 1 = 0x7F) true s.flagC
    (∀ r, ∃ t, exec (.incR r) s = .next t ∧ t.getR8 r = s.getR8 r + 1 ∧ t.main.f = up (s.getR8 r) ∧
      (∀ q, q ≠ r → t.getR8 q = s.getR8 q) ∧ t = { s with main := t.main }) ∧
    (∀ r, ∃ t, exec (.decR r) s = .next t ∧ t.getR8 r = s.getR8 r - 1 ∧ t.main.f = down (s.getR8 r) ∧
      (∀ q, q ≠ r → t.getR8 q = s.getR8 q) ∧ t = { s with main := t.main }) ∧
    (∀ j h, ∃ t, exec (.incIxHalf j h) s = .next t ∧ t.getHalf j h = s.getHalf j h + 1 ∧
      (∀ g, g ≠ h → t.getHalf j g = s.getHalf j g) ∧ (∀ k, k ≠ j → t.getIx k = s.getIx k) ∧
      t = { s with main := { s.main with f := up (s.getHalf j h) }, ix := t.ix, iy := t.iy }) ∧
    (∀ j h, ∃ t, exec (.decIxHalf j h) s = .next t ∧ t.getHalf j h = s.getHalf j h - 1 ∧
      (∀ g, g ≠ h → t.getHalf j g = s.getHalf j g) ∧ (∀ k, k ≠ j → t.getIx k = s.getIx k) ∧
      t = { s with main := { s.main with f := down (s.getHalf j h) }, ix := t.ix, iy := t.iy }) ∧
    ModifiesByte .incMemHl s s.hl (· + 1) up ∧ ModifiesByte .decMemHl s s.hl (· - 1) down ∧
    (∀ j d, ModifiesByte (.incMemIx j d) s (s.getIx j + d.signExtend 16) (· + 1) up) ∧
    ∀ j d, ModifiesByte (.decMemIx j d) s (s.getIx j + d.signExtend 16) (· - 1) down

/-- R270 to R274. The flags of CPL and NEG rest on the decision D21, Y and X of SCF and CCF on D15. -/
def Obligations.AccumulatorAdjustments : Prop :=
  ∀ s : State,
    let a := s.main.a
    let low : Int := if s.flagH = true ∨ 9 < a.toNat % 16 then 0x06 else 0
    let high : Int := if s.flagC = true ∨ 0x99 < a.toNat then 0x60 else 0
    let t : Byte := BitVec.ofInt 8 (if s.flagN then a.toNat - (low + high) else a.toNat + (low + high))
    exec .daa s =
      .next { s with
        main := { s.main with
          a := t
          f := resultFlags t (a.getLsbD 4 != t.getLsbD 4) (evenParity t) s.flagN (s.flagC || 0x99 < a.toNat) } } ∧
    exec .cpl s =
      .next { s with
        main := { s.main with
          a := ~~~a
          f := flagByte s.flagS s.flagZ (!a.getLsbD 5) true (!a.getLsbD 3) s.flagPV true s.flagC } } ∧
    exec .neg s = .next { s with main := { s.main with a := -a, f := differenceFlags 0 a false } } ∧
    exec .scf s =
      .next { s with
        main := { s.main with
          f := flagByte s.flagS s.flagZ (a.getLsbD 5) false (a.getLsbD 3) s.flagPV false true } } ∧
    exec .ccf s =
      .next { s with
        main := { s.main with
          f := flagByte s.flagS s.flagZ (a.getLsbD 5) s.flagC (a.getLsbD 3) s.flagPV false (!s.flagC) } }

/-- R275, the decimal row: DAA corrects A after an addition or subtraction of packed BCD bytes. `x` and `y` are two-digit
decimal numbers; C is the decimal carry or borrow. -/
def Obligations.DaaCorrectsBcd : Prop :=
  ∀ (s : State) (x y : Fin 100),
    let bcd : Nat → Byte := fun k => BitVec.ofNat 8 (k / 10 * 16 + k % 10)
    s.main.a = bcd x.val →
    (∃ t u, exec (.addAN (bcd y.val)) s = .next t ∧ exec .daa t = .next u ∧
      u.main.a = bcd ((x.val + y.val) % 100) ∧ u.flagC = decide (100 ≤ x.val + y.val)) ∧
    ∃ t u, exec (.subN (bcd y.val)) s = .next t ∧ exec .daa t = .next u ∧
      u.main.a = bcd ((100 + x.val - y.val) % 100) ∧ u.flagC = decide (x.val < y.val)

/-! ## 16-bit arithmetic -/

/-- 45_alu16.md R290: S, Z and P/V are kept, H is the carry out of bit 11, C out of bit 15, Y and X bits 13 and 11. -/
def Obligations.AddToHlAndIndex : Prop :=
  ∀ s : State,
    let flags : Word → Word → Byte := fun x v =>
      flagByte s.flagS s.flagZ ((x + v).getLsbD 13) (4095 < x.toNat % 4096 + v.toNat % 4096) ((x + v).getLsbD 11)
        s.flagPV false (65535 < x.toNat + v.toNat)
    (∀ p,
      exec (.addHlRr p) s =
        .next { s with
          main := { s.main with
            h := hiByte (s.hl + s.getPair p), l := loByte (s.hl + s.getPair p), f := flags s.hl (s.getPair p) } }) ∧
    ∀ j p,
      exec (.addIxRr j p) s =
        .next (State.setIx { s with main := { s.main with f := flags (s.getIx j) (s.getPairX j p) } } j
          (s.getIx j + s.getPairX j p))

/-- R291, R292. Y and X rest on the decision D20. -/
def Obligations.AddAndSubtractWithCarry16 : Prop :=
  ∀ (s : State) (p : Pair),
    let v := s.getPair p
    let up : Word := BitVec.ofNat 16 (s.hl.toNat + v.toNat + s.flagC.toNat)
    let down : Word := BitVec.ofInt 16 (s.hl.toNat - v.toNat - s.flagC.toNat)
    exec (.adcHlRr p) s =
      .next { s with
        main := { s.main with h := hiByte up, l := loByte up, f := sumFlags16 s.hl v s.flagC } } ∧
    exec (.sbcHlRr p) s =
      .next { s with
        main := { s.main with h := hiByte down, l := loByte down, f := differenceFlags16 s.hl v s.flagC } }

/-- R293, R294: 16-bit INC and DEC wrap and change no flag. -/
def Obligations.IncrementAndDecrement16 : Prop :=
  ∀ s : State,
    (∀ p, ∃ t, exec (.incRr p) s = .next t ∧ t.getPair p = s.getPair p + 1 ∧
      (∀ q, q ≠ p → t.getPair q = s.getPair q) ∧ t.af = s.af ∧ t = { s with main := t.main, sp := t.sp }) ∧
    (∀ p, ∃ t, exec (.decRr p) s = .next t ∧ t.getPair p = s.getPair p - 1 ∧
      (∀ q, q ≠ p → t.getPair q = s.getPair q) ∧ t.af = s.af ∧ t = { s with main := t.main, sp := t.sp }) ∧
    (∀ j, ∃ t, exec (.incIx j) s = .next t ∧ t.getIx j = s.getIx j + 1 ∧ (∀ k, k ≠ j → t.getIx k = s.getIx k) ∧
      t = { s with ix := t.ix, iy := t.iy }) ∧
    ∀ j, ∃ t, exec (.decIx j) s = .next t ∧ t.getIx j = s.getIx j - 1 ∧ (∀ k, k ≠ j → t.getIx k = s.getIx k) ∧
      t = { s with ix := t.ix, iy := t.iy }

/-! ## Rotates, shifts, bits -/

/-- 46_rotate_shift_bit.md R300 to R303. The flag rule is the decision D19. -/
def Obligations.AccumulatorRotates : Prop :=
  ∀ s : State,
    let a := s.main.a.toNat
    let c := s.flagC.toNat
    exec .rlca s = .next (s.accRotated (a * 2 % 256 + a / 128) (128 ≤ a)) ∧
    exec .rrca s = .next (s.accRotated (a / 2 + a % 2 * 128) (a % 2 = 1)) ∧
    exec .rla s = .next (s.accRotated (a * 2 % 256 + c) (128 ≤ a)) ∧
    exec .rra s = .next (s.accRotated (a / 2 + c * 128) (a % 2 = 1))

/-- R310 to R317, in the three forms of R305 and R306. The flag rule is the decision D18. That SLL shifts in a one is
general knowledge by R316's own mark (log 9). Faults: D3. -/
def Obligations.RotatesAndShifts : Prop :=
  RotateForms .rlcR .rlcMemHl .rlcMemIx (fun _ v => v * 2 % 256 + v / 128) (fun v => 128 ≤ v) ∧
  RotateForms .rrcR .rrcMemHl .rrcMemIx (fun _ v => v / 2 + v % 2 * 128) (fun v => v % 2 = 1) ∧
  RotateForms .rlR .rlMemHl .rlMemIx (fun c v => v * 2 % 256 + c) (fun v => 128 ≤ v) ∧
  RotateForms .rrR .rrMemHl .rrMemIx (fun c v => v / 2 + c * 128) (fun v => v % 2 = 1) ∧
  RotateForms .slaR .slaMemHl .slaMemIx (fun _ v => v * 2 % 256) (fun v => 128 ≤ v) ∧
  RotateForms .sraR .sraMemHl .sraMemIx (fun _ v => v / 2 + v / 128 * 128) (fun v => v % 2 = 1) ∧
  RotateForms .sllR .sllMemHl .sllMemIx (fun _ v => v * 2 % 256 + 1) (fun v => 128 ≤ v) ∧
  RotateForms .srlR .srlMemHl .srlMemIx (fun _ v => v / 2) (fun v => v % 2 = 1)

/-- R320 to R322: BIT writes F only (H = 1, C kept, and Y and X of the memory forms: D14); RES and SET change one bit of
the operand and no flag. Faults: D3. -/
def Obligations.BitOperations : Prop :=
  ∀ b : Field3,
    (∀ s : State,
      let tested : Byte → State := fun v =>
        let on := v.getLsbD b.toNat
        { s with
          main := { s.main with
            f := flagByte (b = 7 && on) (!on) (b = 5 && on) true (b = 3 && on) (!on) false s.flagC } }
      (∀ r, exec (.bitR b r) s = .next (tested (s.getR8 r))) ∧ ReadsByte (.bitMemHl b) s s.hl tested ∧
      ∀ j d, ReadsByte (.bitMemIx b j d) s (s.getIx j + d.signExtend 16) tested) ∧
    CbForms (.resR b) (.resMemHl b) (.resMemIx b)
      (fun _ v => BitVec.ofNat 8 (v.toNat - if v.getLsbD b.toNat then 2 ^ b.toNat else 0)) (fun f _ => f) ∧
    CbForms (.setR b) (.setMemHl b) (.setMemIx b)
      (fun _ v => BitVec.ofNat 8 (v.toNat + if v.getLsbD b.toNat then 0 else 2 ^ b.toNat)) (fun f _ => f)

/-- R330, R331: the three nibbles rotate; general knowledge by the spec's own mark, decision D21. Faults: D3. -/
def Obligations.DecimalRotates : Prop :=
  ∀ s : State, s.mem.wf = true →
    let a := s.main.a.toNat
    let m := (s.byteAt s.hl).toNat
    let withA : Nat → State := fun k =>
      let n : Byte := BitVec.ofNat 8 k
      { s with main := { s.main with a := n, f := resultFlags n false (evenParity n) false s.flagC } }
    if s.hl.toNat < s.cfg.ramSize then
      (∃ t, exec .rld s = .next t ∧
        StoresByte (withA (a / 16 * 16 + m / 16)) t s.hl (BitVec.ofNat 8 (m % 16 * 16 + a % 16))) ∧
      ∃ t, exec .rrd s = .next t ∧
        StoresByte (withA (a / 16 * 16 + m % 16)) t s.hl (BitVec.ofNat 8 (a % 16 * 16 + m / 16))
    else
      exec .rld s = .fault (.memoryOutOfRange s.hl) ∧ exec .rrd s = .fault (.memoryOutOfRange s.hl)

/-! ## Control flow -/

/-- 47_control_flow.md R340 to R345, with the conditions of 30_encoding.md R97. The condition of DJNZ is general
knowledge by the spec's own mark, the numbering of `JR cc` the decision D27. -/
def Obligations.Jumps : Prop :=
  ∀ s : State,
    (s.cond .nz = !s.main.f.getLsbD 6 ∧ s.cond .z = s.main.f.getLsbD 6 ∧ s.cond .nc = !s.main.f.getLsbD 0 ∧
      s.cond .c = s.main.f.getLsbD 0 ∧ s.cond .po = !s.main.f.getLsbD 2 ∧ s.cond .pe = s.main.f.getLsbD 2 ∧
      s.cond .p = !s.main.f.getLsbD 7 ∧ s.cond .m = s.main.f.getLsbD 7) ∧
    (s.condShort .nz = s.cond .nz ∧ s.condShort .z = s.cond .z ∧ s.condShort .nc = s.cond .nc ∧
      s.condShort .c = s.cond .c) ∧
    (∀ nn, exec (.jpNn nn) s = .next { s with pc := nn }) ∧
    (∀ cc nn, exec (.jpCcNn cc nn) s = .next { s with pc := if s.cond cc then nn else s.pc }) ∧
    exec .jpHl s = .next { s with pc := joinBytes s.main.l s.main.h } ∧
    (∀ j, exec (.jpIx j) s = .next { s with pc := s.getIx j }) ∧
    (∀ e, exec (.jr e) s = .next { s with pc := s.pc + e.signExtend 16 }) ∧
    (∀ cc e, exec (.jrCc cc e) s = .next { s with pc := if s.condShort cc then s.pc + e.signExtend 16 else s.pc }) ∧
    ∀ e, exec (.djnz e) s =
      .next { s with
        main := { s.main with b := s.main.b - 1 }
        pc := if s.main.b = 1 then s.pc else s.pc + e.signExtend 16 }

/-- R348 to R351: a call pushes the address of the byte after its operand; a return pops PC and stops the machine in its
own step where it pops 0x0000 (for `RET cc`: decision D8); an untaken form changes nothing. Faults: D3. -/
def Obligations.CallsAndReturns : Prop :=
  ∀ s : State, s.mem.wf = true →
    let w := joinBytes (s.byteAt s.sp) (s.byteAt (s.sp + 1))
    let returned : State :=
      { s with sp := s.sp + 2, pc := w, running := if w = 0x0000 then false else s.running }
    (∀ nn, s.WordInside (s.sp - 2) →
      (∃ t, exec (.callNn nn) s = .next t ∧ StoresWord { s with sp := s.sp - 2, pc := nn } t (s.sp - 2) s.pc) ∧
      ∀ cc, s.cond cc = true → ∃ t, exec (.callCcNn cc nn) s = .next t ∧
        StoresWord { s with sp := s.sp - 2, pc := nn } t (s.sp - 2) s.pc) ∧
    (∀ nn, ¬ s.WordInside (s.sp - 2) →
      exec (.callNn nn) s = .fault (.memoryOutOfRange (s.sp - 2)) ∧
      ∀ cc, s.cond cc = true → exec (.callCcNn cc nn) s = .fault (.memoryOutOfRange (s.sp - 2))) ∧
    (s.WordInside s.sp →
      exec .ret s = .next returned ∧ ∀ cc, s.cond cc = true → exec (.retCc cc) s = .next returned) ∧
    (¬ s.WordInside s.sp →
      exec .ret s = .fault (.memoryOutOfRange s.sp) ∧
      ∀ cc, s.cond cc = true → exec (.retCc cc) s = .fault (.memoryOutOfRange s.sp)) ∧
    ∀ cc, s.cond cc = false → exec (.retCc cc) s = .next s ∧ ∀ nn, exec (.callCcNn cc nn) s = .next s

/-! ## Block instructions -/

/-- 48_block.md R371, R372, R375, R376: one pass of each non-repeating form. The flag rules are the decision D17.
Faults: D3. -/
def Obligations.BlockPasses : Prop :=
  ∀ s : State, s.mem.wf = true →
    let v := s.byteAt s.hl
    let a := s.main.a
    let bc := s.bc - 1
    let moved : Word → State := fun d =>
      let n := v + a
      { s with
        main := { s.main with
          b := hiByte bc, c := loByte bc, d := hiByte (s.de + d), e := loByte (s.de + d)
          h := hiByte (s.hl + d), l := loByte (s.hl + d)
          f := flagByte s.flagS s.flagZ (n.getLsbD 1) false (n.getLsbD 3) (bc ≠ 0) false s.flagC } }
    let searched : Word → State := fun d =>
      let half : Bool := a.toNat % 16 < v.toNat % 16
      let n := a - v - (if half then 1 else 0)
      { s with
        main := { s.main with
          b := hiByte bc, c := loByte bc, h := hiByte (s.hl + d), l := loByte (s.hl + d)
          f := flagByte ((a - v).getLsbD 7) (a = v) (n.getLsbD 1) half (n.getLsbD 3) (bc ≠ 0) true s.flagC } }
    if s.hl.toNat < s.cfg.ramSize then
      exec .cpi s = .next (searched 1) ∧ exec .cpd s = .next (searched (-1)) ∧
      if s.de.toNat < s.cfg.ramSize then
        (∃ t, exec .ldi s = .next t ∧ StoresByte (moved 1) t s.de v) ∧
        ∃ t, exec .ldd s = .next t ∧ StoresByte (moved (-1)) t s.de v
      else
        exec .ldi s = .fault (.memoryOutOfRange s.de) ∧ exec .ldd s = .fault (.memoryOutOfRange s.de)
    else
      exec .cpi s = .fault (.memoryOutOfRange s.hl) ∧ exec .cpd s = .fault (.memoryOutOfRange s.hl) ∧
      exec .ldi s = .fault (.memoryOutOfRange s.hl) ∧ exec .ldd s = .fault (.memoryOutOfRange s.hl)

/-- R370: a repeating form runs the non-repeating form's whole operation first, then the exit test, and goes on from
there; a fault of a pass is a fault of the whole. -/
def Obligations.RepeatingFormsIterate : Prop :=
  ∀ s u : State,
    (exec .ldi s = .next u → exec .ldir s = if u.bc = 0 then .next u else exec .ldir u) ∧
    (exec .ldd s = .next u → exec .lddr s = if u.bc = 0 then .next u else exec .lddr u) ∧
    (exec .cpi s = .next u → exec .cpir s = if u.bc = 0 ∨ u.flagZ = true then .next u else exec .cpir u) ∧
    (exec .cpd s = .next u → exec .cpdr s = if u.bc = 0 ∨ u.flagZ = true then .next u else exec .cpdr u) ∧
    ∀ e,
      (exec .ldi s = .fault e → exec .ldir s = .fault e) ∧ (exec .ldd s = .fault e → exec .lddr s = .fault e) ∧
      (exec .cpi s = .fault e → exec .cpir s = .fault e) ∧ (exec .cpd s = .fault e → exec .cpdr s = .fault e)

/-- R373, R374, R380: LDIR and LDDR end, with BC = 0 and HL and DE moved by BC (by 65536, that is not at all, where BC was
0), F by R371 of the last byte copied; they change nothing but BC, DE, HL, F and memory. The register updates, the flags
and the entry with BC = 0 are the decision D17 (log 11). Where the destination does not run into source bytes still to be
read, it receives them in order and no other byte changes. -/
def Obligations.RepeatedTransfer : Prop :=
  ∀ s : State, s.FullRam → s.mem.wf = true →
    (∃ t, exec .ldir s = .next t ∧ t.bc = 0 ∧ t.hl = s.hl + s.bc ∧ t.de = s.de + s.bc ∧ t.main.a = s.main.a ∧
      (let n := t.byteAt (t.de - 1) + s.main.a
       t.main.f = flagByte s.flagS s.flagZ (n.getLsbD 1) false (n.getLsbD 3) false false s.flagC) ∧
      t = { s with main := t.main, mem := t.mem } ∧
      (s.bc ≠ 0 → s.hl.toNat + s.bc.toNat ≤ 65536 → s.de.toNat + s.bc.toNat ≤ 65536 →
        (s.de.toNat ≤ s.hl.toNat ∨ s.hl.toNat + s.bc.toNat ≤ s.de.toNat) →
        (∀ k, k < s.bc.toNat → t.mem.get (s.de.toNat + k) = s.mem.get (s.hl.toNat + k)) ∧
        ∀ a, (a < s.de.toNat ∨ s.de.toNat + s.bc.toNat ≤ a) → t.mem.get a = s.mem.get a)) ∧
    ∃ t, exec .lddr s = .next t ∧ t.bc = 0 ∧ t.hl = s.hl - s.bc ∧ t.de = s.de - s.bc ∧ t.main.a = s.main.a ∧
      (let n := t.byteAt (t.de + 1) + s.main.a
       t.main.f = flagByte s.flagS s.flagZ (n.getLsbD 1) false (n.getLsbD 3) false false s.flagC) ∧
      t = { s with main := t.main, mem := t.mem } ∧
      (s.bc ≠ 0 → s.bc.toNat ≤ s.hl.toNat + 1 → s.bc.toNat ≤ s.de.toNat + 1 →
        (s.hl.toNat ≤ s.de.toNat ∨ s.de.toNat + s.bc.toNat ≤ s.hl.toNat) →
        (∀ k, k < s.bc.toNat → t.mem.get (s.de.toNat - k) = s.mem.get (s.hl.toNat - k)) ∧
        ∀ a, (s.de.toNat < a ∨ a + s.bc.toNat ≤ s.de.toNat) → t.mem.get a = s.mem.get a)

/-- R377, R378, R380: CPIR and CPDR end, at the first byte equal to A or after BC bytes (65536 where BC was 0), whichever
comes first; F.Z tells which. They change nothing but BC, HL and F. The register updates, P/V, N and C, and the entry
with BC = 0 are the decision D17 (log 11; R381). -/
def Obligations.RepeatedSearch : Prop :=
  ∀ s : State, s.FullRam →
    ∀ i d, ((i = Instr.cpir ∧ d = (1 : Word)) ∨ (i = Instr.cpdr ∧ d = -1)) →
      ∃ (t : State) (n : Nat), exec i s = .next t ∧
        1 ≤ n ∧ n ≤ (if s.bc = 0 then 65536 else s.bc.toNat) ∧
        t.bc = s.bc - BitVec.ofNat 16 n ∧ t.hl = s.hl + BitVec.ofNat 16 n * d ∧ t.de = s.de ∧
        t.main.a = s.main.a ∧ t = { s with main := t.main } ∧
        (∀ k, k + 1 < n → s.byteAt (s.hl + BitVec.ofNat 16 k * d) ≠ s.main.a) ∧
        (t.flagZ = true ↔ s.byteAt (s.hl + BitVec.ofNat 16 (n - 1) * d) = s.main.a) ∧
        (t.flagZ = true ∨ t.bc = 0) ∧ t.flagPV = decide (t.bc ≠ 0) ∧ t.flagN = true ∧ t.flagC = s.flagC

/-! ## Input, output, control -/

/-- 49_io_misc.md R390 to R395, 47_control_flow.md R352. The value of IN from a replaced device is free (20_memory.md R82,
D24; log 3); what IN passes as its second argument is D28; where PC stays at a stop is D9 and D10. -/
def Obligations.IoAndControl : Prop :=
  ∀ s : State,
    (∀ n, ∃ v, exec (.inAN n) s =
        .next { s with main := { s.main with a := v }, ioEvents := s.ioEvents ++ [.input n s.main.a] } ∧
      (s.cfg.device = .null → v = 0x00)) ∧
    (∀ n, exec (.outNA n) s = .next { s with ioEvents := s.ioEvents ++ [.output n s.main.a] }) ∧
    exec .nop s = .next s ∧ exec .di s = .next s ∧ exec .ei s = .next s ∧
    exec .halt s = .next { s with running := false } ∧ exec .rst0 s = .next { s with running := false }

/-- R353 of 47_control_flow.md, 30_encoding.md R123, R124: the three rows that raise `UnimplementedOpcode`, with the bytes
(the third row is the decision D13). -/
def Obligations.UnimplementedOpcodes : Prop :=
  ∀ s : State,
    (∀ y, exec (.rstP y) s = .fault (.unimplementedOpcode (encode (.rstP y)))) ∧
    (∀ op, exec (.edOther op) s = .fault (.unimplementedOpcode [0xED, op])) ∧
    ∀ j d op, exec (.idxCbOther j d op) s = .fault (.unimplementedOpcode (encode (.idxCbOther j d op)))

/-! ## Decoder rows (log 15) -/

/-- 46_rotate_shift_bit.md R305, R306, 30_encoding.md R120, 40_instruction_cycle.md R134, R135: an escape row fetches the
next bytes and does what the row they name does, and it completes wherever that row does; a prefix row sets the latch;
the discarded prefix row puts PC back on the opcode. -/
def Obligations.DecoderRows : Prop :=
  ∀ s : State,
    (s.pc.toNat < s.cfg.ramSize →
      exec .cbEscape s = exec (decodeCb (s.byteAt s.pc)) { s with pc := s.pc + 1 }) ∧
    (∀ j, s.pc.toNat < s.cfg.ramSize → (s.pc + 1).toNat < s.cfg.ramSize →
      exec (.cbEscapeIndexed j) s =
        exec (decodeIdxCb j (s.byteAt s.pc) (s.byteAt (s.pc + 1))) { s with pc := s.pc + 1 + 1 }) ∧
    (∀ bytes i, decode (0xED :: bytes) = .ok (i, []) → s.HoldsAt s.pc bytes →
      (hasImm16 i = true → s.pc + 1 ≠ 0xFFFF) →
      exec .edEscape s = exec i { s with pc := s.pc + BitVec.ofNat 16 bytes.length }) ∧
    (s.FullRam →
      (∃ t, exec .cbEscape s = .next t) ∧
      (∀ j, s.byteAt (s.pc + 1) &&& 7 = 6 → ∃ t, exec (.cbEscapeIndexed j) s = .next t) ∧
      (s.byteAt s.pc ∈ edImplemented →
        (s.byteAt s.pc &&& 0xC7 = 0x43 → s.pc + 1 ≠ 0xFFFF ∧ s.wordAt (s.pc + 1) ≠ 0xFFFF) →
        ∃ t, exec .edEscape s = .next t)) ∧
    exec .ddPrefix s = .next { s with latch := .dd } ∧ exec .fdPrefix s = .next { s with latch := .fd } ∧
    ∀ j op, exec (.prefixDiscarded j op) s = .next { s with pc := s.pc - 1 }
end

