-- ==== Sys2Proof/Laws/Memory.lean ====
section
/-! SUPPORT. Memory as a list: a read after a write, the canonical form, the bound, and that equal contents are equal
data. -/

namespace Sys2Proof.Machine

@[simp] theorem Memory.get_nil (a : Nat) : Memory.get [] a = Memory.unlisted := rfl

/-- The canonical form of a list that starts with a cell. -/
theorem Memory.wf_cons (k : Nat) (v : Byte) (m : Memory) :
    Memory.wf ((k, v) :: m) = true ↔
      v ≠ Memory.unlisted ∧ (∀ c ∈ m, k < c.1) ∧ Memory.wf m = true := by
  simp [Memory.wf, and_assoc]

/-- An address below every listed one reads as unlisted. -/
theorem Memory.get_of_lt : ∀ (m : Memory) (a : Nat), (∀ c ∈ m, a < c.1) → m.get a = Memory.unlisted
  | [], _, _ => rfl
  | (k, v) :: rest, a, h => by
    have hk : a < k := h (k, v) (by simp)
    have := Memory.get_of_lt rest a fun c hc => h c (by simp [hc])
    simp [Memory.get, this, Nat.ne_of_gt hk]

/-- The byte written is the byte read. -/
@[simp] theorem Memory.get_put_same (m : Memory) (a : Nat) (v : Byte) (h : m.wf = true) :
    (m.put a v).get a = v := by
  induction m with
  | nil => by_cases hv : v = Memory.unlisted <;> simp [Memory.put, Memory.get, hv]
  | cons cell rest ih =>
    obtain ⟨k, u⟩ := cell
    obtain ⟨hu, hlt, hrest⟩ := (Memory.wf_cons k u rest).1 h
    simp only [Memory.put]
    split
    · rename_i hak
      split
      · rename_i hv
        rw [hv]
        refine Memory.get_of_lt _ _ fun c hc => ?_
        rcases List.mem_cons.1 hc with rfl | hc
        · exact hak
        · exact Nat.lt_trans hak (hlt c hc)
      · simp [Memory.get]
    · split
      · rename_i hak
        subst hak
        split
        · rename_i hv
          rw [hv]
          exact Memory.get_of_lt _ _ hlt
        · simp [Memory.get]
      · rename_i hak
        simp [Memory.get, Ne.symm hak, ih hrest]

/-- A write leaves every other address alone. -/
@[simp] theorem Memory.get_put_other (m : Memory) (a b : Nat) (v : Byte) (h : m.wf = true) (hab : b ≠ a) :
    (m.put a v).get b = m.get b := by
  induction m with
  | nil => by_cases hv : v = Memory.unlisted <;> simp [Memory.put, Memory.get, hv, Ne.symm hab]
  | cons cell rest ih =>
    obtain ⟨k, u⟩ := cell
    obtain ⟨hu, hlt, hrest⟩ := (Memory.wf_cons k u rest).1 h
    simp only [Memory.put]
    split
    · split
      · rfl
      · simp [Memory.get, Ne.symm hab]
    · split
      · rename_i hak
        subst hak
        split
        · simp [Memory.get, Ne.symm hab]
        · simp [Memory.get, Ne.symm hab]
      · simp [Memory.get, ih hrest]

/-- Which addresses a write can list. -/
theorem Memory.mem_put (m : Memory) (a : Nat) (v : Byte) (c : Host.Cell) (h : c ∈ m.put a v) :
    c ∈ m ∨ c = (a, v) := by
  induction m with
  | nil =>
    simp only [Memory.put] at h
    split at h <;> simp_all
  | cons cell rest ih =>
    obtain ⟨k, u⟩ := cell
    simp only [Memory.put] at h
    split at h
    · split at h
      · exact .inl h
      · rcases List.mem_cons.1 h with rfl | h
        · exact .inr rfl
        · exact .inl h
    · split at h
      · split at h
        · exact .inl (by simp [h])
        · rcases List.mem_cons.1 h with rfl | h
          · exact .inr rfl
          · exact .inl (by simp [h])
      · rcases List.mem_cons.1 h with rfl | h
        · exact .inl (by simp)
        · rcases ih h with h | h
          · exact .inl (by simp [h])
          · exact .inr h

/-- A write keeps the canonical form. -/
@[simp] theorem Memory.put_wf (m : Memory) (a : Nat) (v : Byte) (h : m.wf = true) : (m.put a v).wf = true := by
  induction m with
  | nil => by_cases hv : v = Memory.unlisted <;> simp [Memory.put, Memory.wf, hv]
  | cons cell rest ih =>
    obtain ⟨k, u⟩ := cell
    obtain ⟨hu, hlt, hrest⟩ := (Memory.wf_cons k u rest).1 h
    simp only [Memory.put]
    split
    · rename_i hak
      split
      · exact h
      · rename_i hv
        refine (Memory.wf_cons _ _ _).2 ⟨hv, fun c hc => ?_, h⟩
        rcases List.mem_cons.1 hc with rfl | hc
        · exact hak
        · exact Nat.lt_trans hak (hlt c hc)
    · split
      · rename_i hak
        subst hak
        split
        · exact hrest
        · rename_i hv
          exact (Memory.wf_cons _ _ _).2 ⟨hv, hlt, hrest⟩
      · rename_i hlt' hak
        refine (Memory.wf_cons _ _ _).2 ⟨hu, fun c hc => ?_, ih hrest⟩
        rcases Memory.mem_put _ _ _ _ hc with hc | rfl
        · exact hlt c hc
        · simp only; omega

/-- Writes inside a bound keep the listed addresses inside it. -/
@[simp] theorem Memory.put_inside (m : Memory) (a : Nat) (v : Byte) (n : Nat) (h : m.inside n = true) (ha : a < n) :
    (m.put a v).inside n = true := by
  simp only [Memory.inside, List.all_eq_true, decide_eq_true_eq] at *
  intro c hc
  rcases Memory.mem_put _ _ _ _ hc with hc | rfl
  · exact h c hc
  · exact ha

/-- An address outside the bound reads as unlisted. -/
theorem Memory.get_of_inside (m : Memory) (n a : Nat) (h : m.inside n = true) (ha : n ≤ a) :
    m.get a = Memory.unlisted := by
  induction m with
  | nil => rfl
  | cons cell rest ih =>
    obtain ⟨k, v⟩ := cell
    simp only [Memory.inside, List.all_cons, Bool.and_eq_true, decide_eq_true_eq] at h
    have hk : k ≠ a := by omega
    simpa [Memory.get, hk] using ih h.2

/-- Canonical memories with the same contents are the same list. -/
theorem Memory.ext_of_wf : ∀ (m m' : Memory), m.wf = true → m'.wf = true → (∀ a, m.get a = m'.get a) → m = m'
  | [], [], _, _, _ => rfl
  | [], (k, v) :: m', _, h', hg => by
    have := hg k
    simp [Memory.get] at this
    exact absurd this.symm ((Memory.wf_cons k v m').1 h').1
  | (k, v) :: m, [], h, _, hg => by
    have := hg k
    simp [Memory.get] at this
    exact absurd this ((Memory.wf_cons k v m).1 h).1
  | (k, v) :: m, (k', v') :: m', h, h', hg => by
    obtain ⟨hv, hlt, hm⟩ := (Memory.wf_cons k v m).1 h
    obtain ⟨hv', hlt', hm'⟩ := (Memory.wf_cons k' v' m').1 h'
    have hk : k = k' := by
      rcases Nat.lt_trichotomy k k' with hkk | hkk | hkk
      · have h1 := hg k
        rw [Memory.get_of_lt ((k', v') :: m') k fun c hc => by
          rcases List.mem_cons.1 hc with rfl | hc
          · exact hkk
          · exact Nat.lt_trans hkk (hlt' c hc)] at h1
        simp [Memory.get] at h1
        exact absurd h1 hv
      · exact hkk
      · have h1 := hg k'
        rw [Memory.get_of_lt ((k, v) :: m) k' fun c hc => by
          rcases List.mem_cons.1 hc with rfl | hc
          · exact hkk
          · exact Nat.lt_trans hkk (hlt c hc)] at h1
        simp [Memory.get] at h1
        exact absurd h1.symm hv'
    subst hk
    have hvv : v = v' := by simpa [Memory.get] using hg k
    subst hvv
    rw [Memory.ext_of_wf m m' hm hm' fun a => ?_]
    by_cases hak : k = a
    · subst hak
      rw [Memory.get_of_lt m k hlt, Memory.get_of_lt m' k hlt']
    · simpa [Memory.get, hak] using hg a

/-- Writing the byte that is there already changes nothing. -/
theorem Memory.put_get_self (m : Memory) (a : Nat) (h : m.wf = true) : m.put a (m.get a) = m := by
  refine Memory.ext_of_wf _ _ (Memory.put_wf _ _ _ h) h fun b => ?_
  by_cases hb : b = a
  · rw [hb, Memory.get_put_same _ _ _ h]
  · rw [Memory.get_put_other _ _ _ _ h hb]

/-- The later of two writes to one address stays. -/
theorem Memory.put_put_same (m : Memory) (a : Nat) (u v : Byte) (h : m.wf = true) :
    (m.put a u).put a v = m.put a v := by
  refine Memory.ext_of_wf _ _ (by simp [h]) (by simp [h]) fun b => ?_
  by_cases hb : b = a
  · simp [hb, h]
  · simp [hb, h]

/-- Loading a run of bytes keeps the canonical form. -/
theorem Memory.putBytes_wf : ∀ (m : Memory) (a : Nat) (bytes : List Byte), m.wf = true → (m.putBytes a bytes).wf = true
  | _, _, [], h => h
  | m, a, v :: rest, h => Memory.putBytes_wf (m.put a v) (a + 1) rest (Memory.put_wf m a v h)

/-- Loading a run of bytes inside a bound keeps the listed addresses inside it. -/
theorem Memory.putBytes_inside : ∀ (m : Memory) (a : Nat) (bytes : List Byte) (n : Nat),
    m.inside n = true → a + bytes.length ≤ n → (m.putBytes a bytes).inside n = true
  | _, _, [], _, h, _ => h
  | m, a, v :: rest, n, h, ha => by
    simp only [List.length_cons] at ha
    exact Memory.putBytes_inside (m.put a v) (a + 1) rest n (Memory.put_inside m a v n h (by omega)) (by omega)

/-- What the placing of code does to the state: nothing but memory, which stays canonical. -/
theorem State.putCode_frame : ∀ (s : State) (a : Word) (bytes : List Byte), s.mem.wf = true →
    s.putCode a bytes = { s with mem := (s.putCode a bytes).mem } ∧ (s.putCode a bytes).mem.wf = true
  | _, _, [], h => ⟨rfl, h⟩
  | s, a, v :: rest, h => by
    simp only [State.putCode]
    split
    · exact State.putCode_frame { s with mem := s.mem.put a.toNat v } (a + 1) rest (Memory.put_wf _ _ _ h)
    · exact State.putCode_frame s (a + 1) rest h

end Sys2Proof.Machine
end

