-- ==== Sys2Proof/Laws/State.lean ====
section
/-! SUPPORT. One lemma per field per named update of State: what the update writes, and that it leaves every other field
alone. Simp uses them, so that no proof unfolds a record update. -/

namespace Sys2Proof.Machine


/-! ## setA -/

@[simp] theorem State.setA_main (s : State) (v : Byte) : (s.setA v).main = { s.main with a := v } := rfl
@[simp] theorem State.setA_alt (s : State) (v : Byte) : (s.setA v).alt = s.alt := rfl
@[simp] theorem State.setA_ix (s : State) (v : Byte) : (s.setA v).ix = s.ix := rfl
@[simp] theorem State.setA_iy (s : State) (v : Byte) : (s.setA v).iy = s.iy := rfl
@[simp] theorem State.setA_sp (s : State) (v : Byte) : (s.setA v).sp = s.sp := rfl
@[simp] theorem State.setA_pc (s : State) (v : Byte) : (s.setA v).pc = s.pc := rfl
@[simp] theorem State.setA_i (s : State) (v : Byte) : (s.setA v).i = s.i := rfl
@[simp] theorem State.setA_r (s : State) (v : Byte) : (s.setA v).r = s.r := rfl
@[simp] theorem State.setA_latch (s : State) (v : Byte) : (s.setA v).latch = s.latch := rfl
@[simp] theorem State.setA_running (s : State) (v : Byte) : (s.setA v).running = s.running := rfl
@[simp] theorem State.setA_starting (s : State) (v : Byte) : (s.setA v).starting = s.starting := rfl
@[simp] theorem State.setA_mem (s : State) (v : Byte) : (s.setA v).mem = s.mem := rfl
@[simp] theorem State.setA_ioEvents (s : State) (v : Byte) : (s.setA v).ioEvents = s.ioEvents := rfl
@[simp] theorem State.setA_cfg (s : State) (v : Byte) : (s.setA v).cfg = s.cfg := rfl

/-! ## setF -/

@[simp] theorem State.setF_main (s : State) (v : Byte) : (s.setF v).main = { s.main with f := v } := rfl
@[simp] theorem State.setF_alt (s : State) (v : Byte) : (s.setF v).alt = s.alt := rfl
@[simp] theorem State.setF_ix (s : State) (v : Byte) : (s.setF v).ix = s.ix := rfl
@[simp] theorem State.setF_iy (s : State) (v : Byte) : (s.setF v).iy = s.iy := rfl
@[simp] theorem State.setF_sp (s : State) (v : Byte) : (s.setF v).sp = s.sp := rfl
@[simp] theorem State.setF_pc (s : State) (v : Byte) : (s.setF v).pc = s.pc := rfl
@[simp] theorem State.setF_i (s : State) (v : Byte) : (s.setF v).i = s.i := rfl
@[simp] theorem State.setF_r (s : State) (v : Byte) : (s.setF v).r = s.r := rfl
@[simp] theorem State.setF_latch (s : State) (v : Byte) : (s.setF v).latch = s.latch := rfl
@[simp] theorem State.setF_running (s : State) (v : Byte) : (s.setF v).running = s.running := rfl
@[simp] theorem State.setF_starting (s : State) (v : Byte) : (s.setF v).starting = s.starting := rfl
@[simp] theorem State.setF_mem (s : State) (v : Byte) : (s.setF v).mem = s.mem := rfl
@[simp] theorem State.setF_ioEvents (s : State) (v : Byte) : (s.setF v).ioEvents = s.ioEvents := rfl
@[simp] theorem State.setF_cfg (s : State) (v : Byte) : (s.setF v).cfg = s.cfg := rfl

/-! ## setBc -/

@[simp] theorem State.setBc_main (s : State) (v : Word) :
    (s.setBc v).main = { s.main with b := hiByte v, c := loByte v } := rfl
@[simp] theorem State.setBc_alt (s : State) (v : Word) : (s.setBc v).alt = s.alt := rfl
@[simp] theorem State.setBc_ix (s : State) (v : Word) : (s.setBc v).ix = s.ix := rfl
@[simp] theorem State.setBc_iy (s : State) (v : Word) : (s.setBc v).iy = s.iy := rfl
@[simp] theorem State.setBc_sp (s : State) (v : Word) : (s.setBc v).sp = s.sp := rfl
@[simp] theorem State.setBc_pc (s : State) (v : Word) : (s.setBc v).pc = s.pc := rfl
@[simp] theorem State.setBc_i (s : State) (v : Word) : (s.setBc v).i = s.i := rfl
@[simp] theorem State.setBc_r (s : State) (v : Word) : (s.setBc v).r = s.r := rfl
@[simp] theorem State.setBc_latch (s : State) (v : Word) : (s.setBc v).latch = s.latch := rfl
@[simp] theorem State.setBc_running (s : State) (v : Word) : (s.setBc v).running = s.running := rfl
@[simp] theorem State.setBc_starting (s : State) (v : Word) : (s.setBc v).starting = s.starting := rfl
@[simp] theorem State.setBc_mem (s : State) (v : Word) : (s.setBc v).mem = s.mem := rfl
@[simp] theorem State.setBc_ioEvents (s : State) (v : Word) : (s.setBc v).ioEvents = s.ioEvents := rfl
@[simp] theorem State.setBc_cfg (s : State) (v : Word) : (s.setBc v).cfg = s.cfg := rfl

/-! ## setDe -/

@[simp] theorem State.setDe_main (s : State) (v : Word) :
    (s.setDe v).main = { s.main with d := hiByte v, e := loByte v } := rfl
@[simp] theorem State.setDe_alt (s : State) (v : Word) : (s.setDe v).alt = s.alt := rfl
@[simp] theorem State.setDe_ix (s : State) (v : Word) : (s.setDe v).ix = s.ix := rfl
@[simp] theorem State.setDe_iy (s : State) (v : Word) : (s.setDe v).iy = s.iy := rfl
@[simp] theorem State.setDe_sp (s : State) (v : Word) : (s.setDe v).sp = s.sp := rfl
@[simp] theorem State.setDe_pc (s : State) (v : Word) : (s.setDe v).pc = s.pc := rfl
@[simp] theorem State.setDe_i (s : State) (v : Word) : (s.setDe v).i = s.i := rfl
@[simp] theorem State.setDe_r (s : State) (v : Word) : (s.setDe v).r = s.r := rfl
@[simp] theorem State.setDe_latch (s : State) (v : Word) : (s.setDe v).latch = s.latch := rfl
@[simp] theorem State.setDe_running (s : State) (v : Word) : (s.setDe v).running = s.running := rfl
@[simp] theorem State.setDe_starting (s : State) (v : Word) : (s.setDe v).starting = s.starting := rfl
@[simp] theorem State.setDe_mem (s : State) (v : Word) : (s.setDe v).mem = s.mem := rfl
@[simp] theorem State.setDe_ioEvents (s : State) (v : Word) : (s.setDe v).ioEvents = s.ioEvents := rfl
@[simp] theorem State.setDe_cfg (s : State) (v : Word) : (s.setDe v).cfg = s.cfg := rfl

/-! ## setHl -/

@[simp] theorem State.setHl_main (s : State) (v : Word) :
    (s.setHl v).main = { s.main with h := hiByte v, l := loByte v } := rfl
@[simp] theorem State.setHl_alt (s : State) (v : Word) : (s.setHl v).alt = s.alt := rfl
@[simp] theorem State.setHl_ix (s : State) (v : Word) : (s.setHl v).ix = s.ix := rfl
@[simp] theorem State.setHl_iy (s : State) (v : Word) : (s.setHl v).iy = s.iy := rfl
@[simp] theorem State.setHl_sp (s : State) (v : Word) : (s.setHl v).sp = s.sp := rfl
@[simp] theorem State.setHl_pc (s : State) (v : Word) : (s.setHl v).pc = s.pc := rfl
@[simp] theorem State.setHl_i (s : State) (v : Word) : (s.setHl v).i = s.i := rfl
@[simp] theorem State.setHl_r (s : State) (v : Word) : (s.setHl v).r = s.r := rfl
@[simp] theorem State.setHl_latch (s : State) (v : Word) : (s.setHl v).latch = s.latch := rfl
@[simp] theorem State.setHl_running (s : State) (v : Word) : (s.setHl v).running = s.running := rfl
@[simp] theorem State.setHl_starting (s : State) (v : Word) : (s.setHl v).starting = s.starting := rfl
@[simp] theorem State.setHl_mem (s : State) (v : Word) : (s.setHl v).mem = s.mem := rfl
@[simp] theorem State.setHl_ioEvents (s : State) (v : Word) : (s.setHl v).ioEvents = s.ioEvents := rfl
@[simp] theorem State.setHl_cfg (s : State) (v : Word) : (s.setHl v).cfg = s.cfg := rfl

/-! ## setAf -/

@[simp] theorem State.setAf_main (s : State) (v : Word) :
    (s.setAf v).main = { s.main with a := hiByte v, f := loByte v } := rfl
@[simp] theorem State.setAf_alt (s : State) (v : Word) : (s.setAf v).alt = s.alt := rfl
@[simp] theorem State.setAf_ix (s : State) (v : Word) : (s.setAf v).ix = s.ix := rfl
@[simp] theorem State.setAf_iy (s : State) (v : Word) : (s.setAf v).iy = s.iy := rfl
@[simp] theorem State.setAf_sp (s : State) (v : Word) : (s.setAf v).sp = s.sp := rfl
@[simp] theorem State.setAf_pc (s : State) (v : Word) : (s.setAf v).pc = s.pc := rfl
@[simp] theorem State.setAf_i (s : State) (v : Word) : (s.setAf v).i = s.i := rfl
@[simp] theorem State.setAf_r (s : State) (v : Word) : (s.setAf v).r = s.r := rfl
@[simp] theorem State.setAf_latch (s : State) (v : Word) : (s.setAf v).latch = s.latch := rfl
@[simp] theorem State.setAf_running (s : State) (v : Word) : (s.setAf v).running = s.running := rfl
@[simp] theorem State.setAf_starting (s : State) (v : Word) : (s.setAf v).starting = s.starting := rfl
@[simp] theorem State.setAf_mem (s : State) (v : Word) : (s.setAf v).mem = s.mem := rfl
@[simp] theorem State.setAf_ioEvents (s : State) (v : Word) : (s.setAf v).ioEvents = s.ioEvents := rfl
@[simp] theorem State.setAf_cfg (s : State) (v : Word) : (s.setAf v).cfg = s.cfg := rfl

/-! ## setR8 -/

@[simp] theorem State.setR8_alt (s : State) (r : Reg8) (v : Byte) : (s.setR8 r v).alt = s.alt := by cases r <;> rfl
@[simp] theorem State.setR8_ix (s : State) (r : Reg8) (v : Byte) : (s.setR8 r v).ix = s.ix := by cases r <;> rfl
@[simp] theorem State.setR8_iy (s : State) (r : Reg8) (v : Byte) : (s.setR8 r v).iy = s.iy := by cases r <;> rfl
@[simp] theorem State.setR8_sp (s : State) (r : Reg8) (v : Byte) : (s.setR8 r v).sp = s.sp := by cases r <;> rfl
@[simp] theorem State.setR8_pc (s : State) (r : Reg8) (v : Byte) : (s.setR8 r v).pc = s.pc := by cases r <;> rfl
@[simp] theorem State.setR8_i (s : State) (r : Reg8) (v : Byte) : (s.setR8 r v).i = s.i := by cases r <;> rfl
@[simp] theorem State.setR8_r (s : State) (r : Reg8) (v : Byte) : (s.setR8 r v).r = s.r := by cases r <;> rfl
@[simp] theorem State.setR8_latch (s : State) (r : Reg8) (v : Byte) :
    (s.setR8 r v).latch = s.latch := by cases r <;> rfl
@[simp] theorem State.setR8_running (s : State) (r : Reg8) (v : Byte) :
    (s.setR8 r v).running = s.running := by cases r <;> rfl
@[simp] theorem State.setR8_starting (s : State) (r : Reg8) (v : Byte) :
    (s.setR8 r v).starting = s.starting := by cases r <;> rfl
@[simp] theorem State.setR8_mem (s : State) (r : Reg8) (v : Byte) : (s.setR8 r v).mem = s.mem := by cases r <;> rfl
@[simp] theorem State.setR8_ioEvents (s : State) (r : Reg8) (v : Byte) :
    (s.setR8 r v).ioEvents = s.ioEvents := by cases r <;> rfl
@[simp] theorem State.setR8_cfg (s : State) (r : Reg8) (v : Byte) : (s.setR8 r v).cfg = s.cfg := by cases r <;> rfl

/-! ## setIx -/

@[simp] theorem State.setIx_main (s : State) (j : IdxReg) (v : Word) :
    (s.setIx j v).main = s.main := by cases j <;> rfl
@[simp] theorem State.setIx_alt (s : State) (j : IdxReg) (v : Word) : (s.setIx j v).alt = s.alt := by cases j <;> rfl
@[simp] theorem State.setIx_sp (s : State) (j : IdxReg) (v : Word) : (s.setIx j v).sp = s.sp := by cases j <;> rfl
@[simp] theorem State.setIx_pc (s : State) (j : IdxReg) (v : Word) : (s.setIx j v).pc = s.pc := by cases j <;> rfl
@[simp] theorem State.setIx_i (s : State) (j : IdxReg) (v : Word) : (s.setIx j v).i = s.i := by cases j <;> rfl
@[simp] theorem State.setIx_r (s : State) (j : IdxReg) (v : Word) : (s.setIx j v).r = s.r := by cases j <;> rfl
@[simp] theorem State.setIx_latch (s : State) (j : IdxReg) (v : Word) :
    (s.setIx j v).latch = s.latch := by cases j <;> rfl
@[simp] theorem State.setIx_running (s : State) (j : IdxReg) (v : Word) :
    (s.setIx j v).running = s.running := by cases j <;> rfl
@[simp] theorem State.setIx_starting (s : State) (j : IdxReg) (v : Word) :
    (s.setIx j v).starting = s.starting := by cases j <;> rfl
@[simp] theorem State.setIx_mem (s : State) (j : IdxReg) (v : Word) : (s.setIx j v).mem = s.mem := by cases j <;> rfl
@[simp] theorem State.setIx_ioEvents (s : State) (j : IdxReg) (v : Word) :
    (s.setIx j v).ioEvents = s.ioEvents := by cases j <;> rfl
@[simp] theorem State.setIx_cfg (s : State) (j : IdxReg) (v : Word) : (s.setIx j v).cfg = s.cfg := by cases j <;> rfl

/-! ## setHalf -/

@[simp] theorem State.setHalf_main (s : State) (j : IdxReg) (h : Half) (v : Byte) :
    (s.setHalf j h v).main = s.main := by cases j <;> cases h <;> rfl
@[simp] theorem State.setHalf_alt (s : State) (j : IdxReg) (h : Half) (v : Byte) :
    (s.setHalf j h v).alt = s.alt := by cases j <;> cases h <;> rfl
@[simp] theorem State.setHalf_sp (s : State) (j : IdxReg) (h : Half) (v : Byte) :
    (s.setHalf j h v).sp = s.sp := by cases j <;> cases h <;> rfl
@[simp] theorem State.setHalf_pc (s : State) (j : IdxReg) (h : Half) (v : Byte) :
    (s.setHalf j h v).pc = s.pc := by cases j <;> cases h <;> rfl
@[simp] theorem State.setHalf_i (s : State) (j : IdxReg) (h : Half) (v : Byte) :
    (s.setHalf j h v).i = s.i := by cases j <;> cases h <;> rfl
@[simp] theorem State.setHalf_r (s : State) (j : IdxReg) (h : Half) (v : Byte) :
    (s.setHalf j h v).r = s.r := by cases j <;> cases h <;> rfl
@[simp] theorem State.setHalf_latch (s : State) (j : IdxReg) (h : Half) (v : Byte) :
    (s.setHalf j h v).latch = s.latch := by cases j <;> cases h <;> rfl
@[simp] theorem State.setHalf_running (s : State) (j : IdxReg) (h : Half) (v : Byte) :
    (s.setHalf j h v).running = s.running := by cases j <;> cases h <;> rfl
@[simp] theorem State.setHalf_starting (s : State) (j : IdxReg) (h : Half) (v : Byte) :
    (s.setHalf j h v).starting = s.starting := by cases j <;> cases h <;> rfl
@[simp] theorem State.setHalf_mem (s : State) (j : IdxReg) (h : Half) (v : Byte) :
    (s.setHalf j h v).mem = s.mem := by cases j <;> cases h <;> rfl
@[simp] theorem State.setHalf_ioEvents (s : State) (j : IdxReg) (h : Half) (v : Byte) :
    (s.setHalf j h v).ioEvents = s.ioEvents := by cases j <;> cases h <;> rfl
@[simp] theorem State.setHalf_cfg (s : State) (j : IdxReg) (h : Half) (v : Byte) :
    (s.setHalf j h v).cfg = s.cfg := by cases j <;> cases h <;> rfl

/-! ## setX -/

@[simp] theorem State.setX_alt (s : State) (j : IdxReg) (x : RegX) (v : Byte) :
    (s.setX j x v).alt = s.alt := by cases j <;> cases x <;> rfl
@[simp] theorem State.setX_sp (s : State) (j : IdxReg) (x : RegX) (v : Byte) :
    (s.setX j x v).sp = s.sp := by cases j <;> cases x <;> rfl
@[simp] theorem State.setX_pc (s : State) (j : IdxReg) (x : RegX) (v : Byte) :
    (s.setX j x v).pc = s.pc := by cases j <;> cases x <;> rfl
@[simp] theorem State.setX_i (s : State) (j : IdxReg) (x : RegX) (v : Byte) :
    (s.setX j x v).i = s.i := by cases j <;> cases x <;> rfl
@[simp] theorem State.setX_r (s : State) (j : IdxReg) (x : RegX) (v : Byte) :
    (s.setX j x v).r = s.r := by cases j <;> cases x <;> rfl
@[simp] theorem State.setX_latch (s : State) (j : IdxReg) (x : RegX) (v : Byte) :
    (s.setX j x v).latch = s.latch := by cases j <;> cases x <;> rfl
@[simp] theorem State.setX_running (s : State) (j : IdxReg) (x : RegX) (v : Byte) :
    (s.setX j x v).running = s.running := by cases j <;> cases x <;> rfl
@[simp] theorem State.setX_starting (s : State) (j : IdxReg) (x : RegX) (v : Byte) :
    (s.setX j x v).starting = s.starting := by cases j <;> cases x <;> rfl
@[simp] theorem State.setX_mem (s : State) (j : IdxReg) (x : RegX) (v : Byte) :
    (s.setX j x v).mem = s.mem := by cases j <;> cases x <;> rfl
@[simp] theorem State.setX_ioEvents (s : State) (j : IdxReg) (x : RegX) (v : Byte) :
    (s.setX j x v).ioEvents = s.ioEvents := by cases j <;> cases x <;> rfl
@[simp] theorem State.setX_cfg (s : State) (j : IdxReg) (x : RegX) (v : Byte) :
    (s.setX j x v).cfg = s.cfg := by cases j <;> cases x <;> rfl

/-! ## setPair -/

@[simp] theorem State.setPair_alt (s : State) (p : Pair) (v : Word) :
    (s.setPair p v).alt = s.alt := by cases p <;> rfl
@[simp] theorem State.setPair_ix (s : State) (p : Pair) (v : Word) : (s.setPair p v).ix = s.ix := by cases p <;> rfl
@[simp] theorem State.setPair_iy (s : State) (p : Pair) (v : Word) : (s.setPair p v).iy = s.iy := by cases p <;> rfl
@[simp] theorem State.setPair_pc (s : State) (p : Pair) (v : Word) : (s.setPair p v).pc = s.pc := by cases p <;> rfl
@[simp] theorem State.setPair_i (s : State) (p : Pair) (v : Word) : (s.setPair p v).i = s.i := by cases p <;> rfl
@[simp] theorem State.setPair_r (s : State) (p : Pair) (v : Word) : (s.setPair p v).r = s.r := by cases p <;> rfl
@[simp] theorem State.setPair_latch (s : State) (p : Pair) (v : Word) :
    (s.setPair p v).latch = s.latch := by cases p <;> rfl
@[simp] theorem State.setPair_running (s : State) (p : Pair) (v : Word) :
    (s.setPair p v).running = s.running := by cases p <;> rfl
@[simp] theorem State.setPair_starting (s : State) (p : Pair) (v : Word) :
    (s.setPair p v).starting = s.starting := by cases p <;> rfl
@[simp] theorem State.setPair_mem (s : State) (p : Pair) (v : Word) :
    (s.setPair p v).mem = s.mem := by cases p <;> rfl
@[simp] theorem State.setPair_ioEvents (s : State) (p : Pair) (v : Word) :
    (s.setPair p v).ioEvents = s.ioEvents := by cases p <;> rfl
@[simp] theorem State.setPair_cfg (s : State) (p : Pair) (v : Word) :
    (s.setPair p v).cfg = s.cfg := by cases p <;> rfl

/-! ## setPairQ -/

@[simp] theorem State.setPairQ_alt (s : State) (q : PairQ) (v : Word) :
    (s.setPairQ q v).alt = s.alt := by cases q <;> rfl
@[simp] theorem State.setPairQ_ix (s : State) (q : PairQ) (v : Word) :
    (s.setPairQ q v).ix = s.ix := by cases q <;> rfl
@[simp] theorem State.setPairQ_iy (s : State) (q : PairQ) (v : Word) :
    (s.setPairQ q v).iy = s.iy := by cases q <;> rfl
@[simp] theorem State.setPairQ_sp (s : State) (q : PairQ) (v : Word) :
    (s.setPairQ q v).sp = s.sp := by cases q <;> rfl
@[simp] theorem State.setPairQ_pc (s : State) (q : PairQ) (v : Word) :
    (s.setPairQ q v).pc = s.pc := by cases q <;> rfl
@[simp] theorem State.setPairQ_i (s : State) (q : PairQ) (v : Word) : (s.setPairQ q v).i = s.i := by cases q <;> rfl
@[simp] theorem State.setPairQ_r (s : State) (q : PairQ) (v : Word) : (s.setPairQ q v).r = s.r := by cases q <;> rfl
@[simp] theorem State.setPairQ_latch (s : State) (q : PairQ) (v : Word) :
    (s.setPairQ q v).latch = s.latch := by cases q <;> rfl
@[simp] theorem State.setPairQ_running (s : State) (q : PairQ) (v : Word) :
    (s.setPairQ q v).running = s.running := by cases q <;> rfl
@[simp] theorem State.setPairQ_starting (s : State) (q : PairQ) (v : Word) :
    (s.setPairQ q v).starting = s.starting := by cases q <;> rfl
@[simp] theorem State.setPairQ_mem (s : State) (q : PairQ) (v : Word) :
    (s.setPairQ q v).mem = s.mem := by cases q <;> rfl
@[simp] theorem State.setPairQ_ioEvents (s : State) (q : PairQ) (v : Word) :
    (s.setPairQ q v).ioEvents = s.ioEvents := by cases q <;> rfl
@[simp] theorem State.setPairQ_cfg (s : State) (q : PairQ) (v : Word) :
    (s.setPairQ q v).cfg = s.cfg := by cases q <;> rfl

/-! ## jump -/

@[simp] theorem State.jump_main (s : State) (a : Word) : (s.jump a).main = s.main := rfl
@[simp] theorem State.jump_alt (s : State) (a : Word) : (s.jump a).alt = s.alt := rfl
@[simp] theorem State.jump_ix (s : State) (a : Word) : (s.jump a).ix = s.ix := rfl
@[simp] theorem State.jump_iy (s : State) (a : Word) : (s.jump a).iy = s.iy := rfl
@[simp] theorem State.jump_sp (s : State) (a : Word) : (s.jump a).sp = s.sp := rfl
@[simp] theorem State.jump_pc (s : State) (a : Word) : (s.jump a).pc = a := rfl
@[simp] theorem State.jump_i (s : State) (a : Word) : (s.jump a).i = s.i := rfl
@[simp] theorem State.jump_r (s : State) (a : Word) : (s.jump a).r = s.r := rfl
@[simp] theorem State.jump_latch (s : State) (a : Word) : (s.jump a).latch = s.latch := rfl
@[simp] theorem State.jump_running (s : State) (a : Word) : (s.jump a).running = s.running := rfl
@[simp] theorem State.jump_starting (s : State) (a : Word) : (s.jump a).starting = s.starting := rfl
@[simp] theorem State.jump_mem (s : State) (a : Word) : (s.jump a).mem = s.mem := rfl
@[simp] theorem State.jump_ioEvents (s : State) (a : Word) : (s.jump a).ioEvents = s.ioEvents := rfl
@[simp] theorem State.jump_cfg (s : State) (a : Word) : (s.jump a).cfg = s.cfg := rfl

/-! ## jumpRel -/

@[simp] theorem State.jumpRel_main (s : State) (e : Byte) : (s.jumpRel e).main = s.main := rfl
@[simp] theorem State.jumpRel_alt (s : State) (e : Byte) : (s.jumpRel e).alt = s.alt := rfl
@[simp] theorem State.jumpRel_ix (s : State) (e : Byte) : (s.jumpRel e).ix = s.ix := rfl
@[simp] theorem State.jumpRel_iy (s : State) (e : Byte) : (s.jumpRel e).iy = s.iy := rfl
@[simp] theorem State.jumpRel_sp (s : State) (e : Byte) : (s.jumpRel e).sp = s.sp := rfl
@[simp] theorem State.jumpRel_pc (s : State) (e : Byte) : (s.jumpRel e).pc = s.pc + sext e := rfl
@[simp] theorem State.jumpRel_i (s : State) (e : Byte) : (s.jumpRel e).i = s.i := rfl
@[simp] theorem State.jumpRel_r (s : State) (e : Byte) : (s.jumpRel e).r = s.r := rfl
@[simp] theorem State.jumpRel_latch (s : State) (e : Byte) : (s.jumpRel e).latch = s.latch := rfl
@[simp] theorem State.jumpRel_running (s : State) (e : Byte) : (s.jumpRel e).running = s.running := rfl
@[simp] theorem State.jumpRel_starting (s : State) (e : Byte) : (s.jumpRel e).starting = s.starting := rfl
@[simp] theorem State.jumpRel_mem (s : State) (e : Byte) : (s.jumpRel e).mem = s.mem := rfl
@[simp] theorem State.jumpRel_ioEvents (s : State) (e : Byte) : (s.jumpRel e).ioEvents = s.ioEvents := rfl
@[simp] theorem State.jumpRel_cfg (s : State) (e : Byte) : (s.jumpRel e).cfg = s.cfg := rfl

/-! ## setLatch -/

@[simp] theorem State.setLatch_main (s : State) (x : Latch) : (s.setLatch x).main = s.main := rfl
@[simp] theorem State.setLatch_alt (s : State) (x : Latch) : (s.setLatch x).alt = s.alt := rfl
@[simp] theorem State.setLatch_ix (s : State) (x : Latch) : (s.setLatch x).ix = s.ix := rfl
@[simp] theorem State.setLatch_iy (s : State) (x : Latch) : (s.setLatch x).iy = s.iy := rfl
@[simp] theorem State.setLatch_sp (s : State) (x : Latch) : (s.setLatch x).sp = s.sp := rfl
@[simp] theorem State.setLatch_pc (s : State) (x : Latch) : (s.setLatch x).pc = s.pc := rfl
@[simp] theorem State.setLatch_i (s : State) (x : Latch) : (s.setLatch x).i = s.i := rfl
@[simp] theorem State.setLatch_r (s : State) (x : Latch) : (s.setLatch x).r = s.r := rfl
@[simp] theorem State.setLatch_latch (s : State) (x : Latch) : (s.setLatch x).latch = x := rfl
@[simp] theorem State.setLatch_running (s : State) (x : Latch) : (s.setLatch x).running = s.running := rfl
@[simp] theorem State.setLatch_starting (s : State) (x : Latch) : (s.setLatch x).starting = s.starting := rfl
@[simp] theorem State.setLatch_mem (s : State) (x : Latch) : (s.setLatch x).mem = s.mem := rfl
@[simp] theorem State.setLatch_ioEvents (s : State) (x : Latch) : (s.setLatch x).ioEvents = s.ioEvents := rfl
@[simp] theorem State.setLatch_cfg (s : State) (x : Latch) : (s.setLatch x).cfg = s.cfg := rfl

/-! ## stop -/

@[simp] theorem State.stop_main (s : State) : s.stop.main = s.main := rfl
@[simp] theorem State.stop_alt (s : State) : s.stop.alt = s.alt := rfl
@[simp] theorem State.stop_ix (s : State) : s.stop.ix = s.ix := rfl
@[simp] theorem State.stop_iy (s : State) : s.stop.iy = s.iy := rfl
@[simp] theorem State.stop_sp (s : State) : s.stop.sp = s.sp := rfl
@[simp] theorem State.stop_pc (s : State) : s.stop.pc = s.pc := rfl
@[simp] theorem State.stop_i (s : State) : s.stop.i = s.i := rfl
@[simp] theorem State.stop_r (s : State) : s.stop.r = s.r := rfl
@[simp] theorem State.stop_latch (s : State) : s.stop.latch = s.latch := rfl
@[simp] theorem State.stop_running (s : State) : s.stop.running = false := rfl
@[simp] theorem State.stop_starting (s : State) : s.stop.starting = s.starting := rfl
@[simp] theorem State.stop_mem (s : State) : s.stop.mem = s.mem := rfl
@[simp] theorem State.stop_ioEvents (s : State) : s.stop.ioEvents = s.ioEvents := rfl
@[simp] theorem State.stop_cfg (s : State) : s.stop.cfg = s.cfg := rfl

/-! ## hostStop -/

@[simp] theorem State.hostStop_main (s : State) : s.hostStop.main = s.main := rfl
@[simp] theorem State.hostStop_alt (s : State) : s.hostStop.alt = s.alt := rfl
@[simp] theorem State.hostStop_ix (s : State) : s.hostStop.ix = s.ix := rfl
@[simp] theorem State.hostStop_iy (s : State) : s.hostStop.iy = s.iy := rfl
@[simp] theorem State.hostStop_sp (s : State) : s.hostStop.sp = s.sp := rfl
@[simp] theorem State.hostStop_pc (s : State) : s.hostStop.pc = s.pc := rfl
@[simp] theorem State.hostStop_i (s : State) : s.hostStop.i = s.i := rfl
@[simp] theorem State.hostStop_r (s : State) : s.hostStop.r = s.r := rfl
@[simp] theorem State.hostStop_latch (s : State) : s.hostStop.latch = s.latch := rfl
@[simp] theorem State.hostStop_running (s : State) : s.hostStop.running = false := rfl
@[simp] theorem State.hostStop_starting (s : State) : s.hostStop.starting = s.starting := rfl
@[simp] theorem State.hostStop_mem (s : State) : s.hostStop.mem = s.mem := rfl
@[simp] theorem State.hostStop_ioEvents (s : State) : s.hostStop.ioEvents = s.ioEvents := rfl
@[simp] theorem State.hostStop_cfg (s : State) : s.hostStop.cfg = s.cfg := rfl

/-! ## ioOut -/

@[simp] theorem State.ioOut_main (s : State) (port v : Byte) : (s.ioOut port v).main = s.main := rfl
@[simp] theorem State.ioOut_alt (s : State) (port v : Byte) : (s.ioOut port v).alt = s.alt := rfl
@[simp] theorem State.ioOut_ix (s : State) (port v : Byte) : (s.ioOut port v).ix = s.ix := rfl
@[simp] theorem State.ioOut_iy (s : State) (port v : Byte) : (s.ioOut port v).iy = s.iy := rfl
@[simp] theorem State.ioOut_sp (s : State) (port v : Byte) : (s.ioOut port v).sp = s.sp := rfl
@[simp] theorem State.ioOut_pc (s : State) (port v : Byte) : (s.ioOut port v).pc = s.pc := rfl
@[simp] theorem State.ioOut_i (s : State) (port v : Byte) : (s.ioOut port v).i = s.i := rfl
@[simp] theorem State.ioOut_r (s : State) (port v : Byte) : (s.ioOut port v).r = s.r := rfl
@[simp] theorem State.ioOut_latch (s : State) (port v : Byte) : (s.ioOut port v).latch = s.latch := rfl
@[simp] theorem State.ioOut_running (s : State) (port v : Byte) : (s.ioOut port v).running = s.running := rfl
@[simp] theorem State.ioOut_starting (s : State) (port v : Byte) : (s.ioOut port v).starting = s.starting := rfl
@[simp] theorem State.ioOut_mem (s : State) (port v : Byte) : (s.ioOut port v).mem = s.mem := rfl
@[simp] theorem State.ioOut_ioEvents (s : State) (port v : Byte) :
    (s.ioOut port v).ioEvents = s.ioEvents ++ [.output port v] := rfl
@[simp] theorem State.ioOut_cfg (s : State) (port v : Byte) : (s.ioOut port v).cfg = s.cfg := rfl

end Sys2Proof.Machine
end

