-- ==== Sys2Proof/Laws/Operands.lean ====
section
/-! SUPPORT. Bytes and words, and what a read of a register or a pair gives after a write (10_state.md R22). -/

namespace Sys2Proof

theorem getLsbD_joinBytes (lo hi : Byte) (i : Nat) :
    (joinBytes lo hi).getLsbD i = if i < 8 then lo.getLsbD i else hi.getLsbD (i - 8) :=
  BitVec.getLsbD_append

@[simp] theorem loByte_joinBytes (lo hi : Byte) : loByte (joinBytes lo hi) = lo := by
  apply BitVec.eq_of_getLsbD_eq
  intro i h
  rw [loByte, BitVec.getLsbD_extractLsb', Nat.zero_add, getLsbD_joinBytes]
  simp [h]

@[simp] theorem hiByte_joinBytes (lo hi : Byte) : hiByte (joinBytes lo hi) = hi := by
  apply BitVec.eq_of_getLsbD_eq
  intro i h
  rw [hiByte, BitVec.getLsbD_extractLsb', getLsbD_joinBytes]
  simp [h]

@[simp] theorem joinBytes_lo_hi (w : Word) : joinBytes (loByte w) (hiByte w) = w := by
  apply BitVec.eq_of_getLsbD_eq
  intro i h
  rw [getLsbD_joinBytes, loByte, hiByte, BitVec.getLsbD_extractLsb', BitVec.getLsbD_extractLsb', Nat.zero_add]
  split
  · rename_i hi
    simp [hi]
  · have h1 : i - 8 < 8 := by omega
    have h2 : 8 + (i - 8) = i := by omega
    simp [h1, h2]

/-- Two words with the same halves are the same word. -/
theorem word_ext (u v : Word) (hl : loByte u = loByte v) (hh : hiByte u = hiByte v) : u = v := by
  rw [← joinBytes_lo_hi u, ← joinBytes_lo_hi v, hl, hh]

end Sys2Proof

namespace Sys2Proof.Machine

/-! ## Pairs after a write -/

@[simp] theorem State.setBc_bc (s : State) (v : Word) : (s.setBc v).bc = v := joinBytes_lo_hi v
@[simp] theorem State.setBc_de (s : State) (v : Word) : (s.setBc v).de = s.de := rfl
@[simp] theorem State.setBc_hl (s : State) (v : Word) : (s.setBc v).hl = s.hl := rfl
@[simp] theorem State.setBc_af (s : State) (v : Word) : (s.setBc v).af = s.af := rfl
@[simp] theorem State.setDe_bc (s : State) (v : Word) : (s.setDe v).bc = s.bc := rfl
@[simp] theorem State.setDe_de (s : State) (v : Word) : (s.setDe v).de = v := joinBytes_lo_hi v
@[simp] theorem State.setDe_hl (s : State) (v : Word) : (s.setDe v).hl = s.hl := rfl
@[simp] theorem State.setDe_af (s : State) (v : Word) : (s.setDe v).af = s.af := rfl
@[simp] theorem State.setHl_bc (s : State) (v : Word) : (s.setHl v).bc = s.bc := rfl
@[simp] theorem State.setHl_de (s : State) (v : Word) : (s.setHl v).de = s.de := rfl
@[simp] theorem State.setHl_hl (s : State) (v : Word) : (s.setHl v).hl = v := joinBytes_lo_hi v
@[simp] theorem State.setHl_af (s : State) (v : Word) : (s.setHl v).af = s.af := rfl
@[simp] theorem State.setAf_bc (s : State) (v : Word) : (s.setAf v).bc = s.bc := rfl
@[simp] theorem State.setAf_de (s : State) (v : Word) : (s.setAf v).de = s.de := rfl
@[simp] theorem State.setAf_hl (s : State) (v : Word) : (s.setAf v).hl = s.hl := rfl
@[simp] theorem State.setAf_af (s : State) (v : Word) : (s.setAf v).af = v := joinBytes_lo_hi v
@[simp] theorem State.setA_bc (s : State) (v : Byte) : (s.setA v).bc = s.bc := rfl
@[simp] theorem State.setA_de (s : State) (v : Byte) : (s.setA v).de = s.de := rfl
@[simp] theorem State.setA_hl (s : State) (v : Byte) : (s.setA v).hl = s.hl := rfl
@[simp] theorem State.setF_bc (s : State) (v : Byte) : (s.setF v).bc = s.bc := rfl
@[simp] theorem State.setF_de (s : State) (v : Byte) : (s.setF v).de = s.de := rfl
@[simp] theorem State.setF_hl (s : State) (v : Byte) : (s.setF v).hl = s.hl := rfl

/-! ## Registers after a write -/

@[simp] theorem State.setR8_getR8 (s : State) (r : Reg8) (v : Byte) : (s.setR8 r v).getR8 r = v := by
  cases r <;> rfl

theorem State.setR8_getR8_other (s : State) (r r' : Reg8) (v : Byte) (h : r' ≠ r) :
    (s.setR8 r v).getR8 r' = s.getR8 r' := by
  cases r <;> cases r' <;> first | rfl | exact absurd rfl h

/-- Writing back the value a register holds changes nothing (42_load8.md R200). -/
@[simp] theorem State.setR8_self (s : State) (r : Reg8) : s.setR8 r (s.getR8 r) = s := by cases r <;> rfl

@[simp] theorem State.setR8_f (s : State) (r : Reg8) (v : Byte) : (s.setR8 r v).main.f = s.main.f := by
  cases r <;> rfl

@[simp] theorem State.setF_getR8 (s : State) (r : Reg8) (v : Byte) : (s.setF v).getR8 r = s.getR8 r := by
  cases r <;> rfl

@[simp] theorem State.setIx_getIx (s : State) (j : IdxReg) (v : Word) : (s.setIx j v).getIx j = v := by
  cases j <;> rfl

theorem State.setIx_getIx_other (s : State) (j j' : IdxReg) (v : Word) (h : j' ≠ j) :
    (s.setIx j v).getIx j' = s.getIx j' := by
  cases j <;> cases j' <;> first | rfl | exact absurd rfl h

@[simp] theorem State.setIx_self (s : State) (j : IdxReg) : s.setIx j (s.getIx j) = s := by cases j <;> rfl

@[simp] theorem State.setHalf_getHalf (s : State) (j : IdxReg) (h : Half) (v : Byte) :
    (s.setHalf j h v).getHalf j h = v := by
  cases h <;> simp [State.setHalf, State.getHalf]

/-- Writing one half leaves the other half unchanged (10_state.md R22). -/
theorem State.setHalf_getHalf_other (s : State) (j : IdxReg) (h h' : Half) (v : Byte) (hne : h' ≠ h) :
    (s.setHalf j h v).getHalf j h' = s.getHalf j h' := by
  cases h <;> cases h' <;> first | exact absurd rfl hne | simp [State.setHalf, State.getHalf]

@[simp] theorem State.setX_getX (s : State) (j : IdxReg) (x : RegX) (v : Byte) : (s.setX j x v).getX j x = v := by
  cases x <;> simp [State.setX, State.getX, State.setR8]

@[simp] theorem State.setPair_getPair (s : State) (p : Pair) (v : Word) : (s.setPair p v).getPair p = v := by
  cases p <;> simp [State.setPair, State.getPair]

theorem State.setPair_getPair_other (s : State) (p p' : Pair) (v : Word) (h : p' ≠ p) :
    (s.setPair p v).getPair p' = s.getPair p' := by
  cases p <;> cases p' <;> first | rfl | exact absurd rfl h

@[simp] theorem State.setPairQ_getPairQ (s : State) (q : PairQ) (v : Word) : (s.setPairQ q v).getPairQ q = v := by
  cases q <;> simp [State.setPairQ, State.getPairQ]

theorem State.setPairQ_getPairQ_other (s : State) (q q' : PairQ) (v : Word) (h : q' ≠ q) :
    (s.setPairQ q v).getPairQ q' = s.getPairQ q' := by
  cases q <;> cases q' <;> first | rfl | exact absurd rfl h

end Sys2Proof.Machine
end

