-- ==== Sys2Proof/Laws/Ops.lean ====
section
/-! SUPPORT. One lemma per shared operation that says all it can do: when it answers, and with what. -/

namespace Sys2Proof.Machine

/-! ## Range conditions -/

theorem State.byteOk_iff (s : State) (a : Word) : s.byteOk a = true ↔ a.toNat < s.cfg.ramSize := by
  simp [State.byteOk]

theorem State.wordOk_iff (s : State) (a : Word) :
    s.wordOk a = true ↔ a.toNat + 1 < s.cfg.ramSize ∧ a ≠ 0xFFFF := by
  simp [State.wordOk]

/-- The next address of a word access, without wrap-around. -/
theorem State.wordOk_next (s : State) (a : Word) (h : s.wordOk a = true) : (a + 1).toNat = a.toNat + 1 := by
  have hne : a ≠ 0xFFFF := ((s.wordOk_iff a).1 h).2
  have : a.toNat ≠ 65535 := fun hc => hne (BitVec.eq_of_toNat_eq (by simpa using hc))
  have := a.isLt
  rw [BitVec.toNat_add, show (1 : Word).toNat = 1 from rfl]
  omega

theorem State.wordOk_byteOk (s : State) (a : Word) (h : s.wordOk a = true) :
    s.byteOk a = true ∧ s.byteOk (a + 1) = true := by
  have h1 := ((s.wordOk_iff a).1 h).1
  rw [State.byteOk_iff, State.byteOk_iff, s.wordOk_next a h]
  omega

/-- Every byte of the full address space can be accessed. -/
theorem State.byteOk_of_fullRam (s : State) (h : s.FullRam) (a : Word) : s.byteOk a = true := by
  have := a.isLt
  rw [State.byteOk_iff, h]
  omega

/-- In the full address space only the word at `0xFFFF` is outside (60_exceptions.md R402). -/
theorem State.wordOk_of_fullRam (s : State) (h : s.FullRam) (a : Word) (ha : a ≠ 0xFFFF) : s.wordOk a = true := by
  have : a.toNat ≠ 65535 := fun hc => ha (BitVec.eq_of_toNat_eq (by simpa using hc))
  have := a.isLt
  rw [State.wordOk_iff, h]
  exact ⟨by omega, ha⟩

/-! ## Memory -/

theorem State.memRead8_eq (s : State) (a : Word) (h : s.byteOk a = true) : s.memRead8 a = .ok (s.byteAt a) := by
  simp [State.memRead8, h]

theorem State.memRead8_ok (s : State) (a : Word) (v : Byte) :
    s.memRead8 a = .ok v ↔ s.byteOk a = true ∧ v = s.byteAt a := by
  by_cases h : s.byteOk a = true
  · simp [State.memRead8, h, eq_comm]
  · simp [State.memRead8, h]

theorem State.memWrite8_ok (s : State) (a : Word) (v : Byte) (t : State) :
    s.memWrite8 a v = .ok t ↔ s.byteOk a = true ∧ t = { s with mem := s.mem.put a.toNat v } := by
  by_cases h : s.byteOk a = true
  · simp [State.memWrite8, h, eq_comm]
  · simp [State.memWrite8, h]

theorem State.memRead16_eq (s : State) (a : Word) (h : s.wordOk a = true) : s.memRead16 a = .ok (s.wordAt a) := by
  simp [State.memRead16, h]

theorem State.memRead16_ok (s : State) (a : Word) (v : Word) :
    s.memRead16 a = .ok v ↔ s.wordOk a = true ∧ v = s.wordAt a := by
  by_cases h : s.wordOk a = true
  · simp [State.memRead16, h, eq_comm]
  · simp [State.memRead16, h]

theorem State.memWrite16_ok (s : State) (a : Word) (v : Word) (t : State) :
    s.memWrite16 a v = .ok t ↔
      s.wordOk a = true ∧
      t = { s with mem := (s.mem.put a.toNat (loByte v)).put (a.toNat + 1) (hiByte v) } := by
  by_cases h : s.wordOk a = true
  · simp [State.memWrite16, h, eq_comm]
  · simp [State.memWrite16, h]

/-- What a byte write does: the state is otherwise the same, and so is every other byte. -/
theorem State.memWrite8_stores (s t : State) (a : Word) (v : Byte) (hw : s.mem.wf = true)
    (h : s.memWrite8 a v = .ok t) : StoresByte s t a v := by
  obtain ⟨-, rfl⟩ := (s.memWrite8_ok a v t).1 h
  refine ⟨rfl, by simp [State.byteAt, hw], fun b hb => ?_⟩
  have : b.toNat ≠ a.toNat := fun hc => hb (BitVec.eq_of_toNat_eq hc)
  simp [State.byteAt, hw, this]

/-- What a word write does, low byte first. -/
theorem State.memWrite16_stores (s t : State) (a v : Word) (hw : s.mem.wf = true)
    (h : s.memWrite16 a v = .ok t) : StoresWord s t a v := by
  obtain ⟨hok, rfl⟩ := (s.memWrite16_ok a v t).1 h
  have hn := s.wordOk_next a hok
  refine ⟨rfl, ?_, ?_, fun b hb hb' => ?_⟩
  · simp [State.byteAt, hw]
  · rw [State.byteAt, hn]
    simp [hw]
  · have h1 : b.toNat ≠ a.toNat := fun hc => hb (BitVec.eq_of_toNat_eq hc)
    have h2 : b.toNat ≠ a.toNat + 1 := fun hc => hb' (BitVec.eq_of_toNat_eq (by rw [hn]; exact hc))
    simp [State.byteAt, hw, h1, h2]

/-! ## Operand access -/

theorem State.withByte_next (s t : State) (a : Word) (k : Byte → State) :
    s.withByte a k = .next t ↔ s.byteOk a = true ∧ t = k (s.byteAt a) := by
  by_cases h : s.byteOk a = true
  · simp [State.withByte, State.memRead8, h, eq_comm]
  · simp [State.withByte, State.memRead8, h]

theorem State.withWord_next (s t : State) (a : Word) (k : Word → State) :
    s.withWord a k = .next t ↔ s.wordOk a = true ∧ t = k (s.wordAt a) := by
  by_cases h : s.wordOk a = true
  · simp [State.withWord, State.memRead16, h, eq_comm]
  · simp [State.withWord, State.memRead16, h]

theorem toResult_next (r : Except Fault State) (t : State) : toResult r = .next t ↔ r = .ok t := by
  cases r <;> simp [toResult]

theorem State.storeByte_next (s t : State) (a : Word) (v : Byte) :
    s.storeByte a v = .next t ↔ s.byteOk a = true ∧ t = { s with mem := s.mem.put a.toNat v } := by
  rw [State.storeByte, toResult_next, State.memWrite8_ok]

theorem State.storeWord_next (s t : State) (a : Word) (v : Word) :
    s.storeWord a v = .next t ↔
      s.wordOk a = true ∧
      t = { s with mem := (s.mem.put a.toNat (loByte v)).put (a.toNat + 1) (hiByte v) } := by
  rw [State.storeWord, toResult_next, State.memWrite16_ok]

theorem State.modifyByte_next (s t : State) (a : Word) (new flags : Byte → Byte) :
    s.modifyByte a new flags = .next t ↔
      s.byteOk a = true ∧
      t = State.setF { s with mem := s.mem.put a.toNat (new (s.byteAt a)) } (flags (s.byteAt a)) := by
  by_cases h : s.byteOk a = true
  · simp [State.modifyByte, State.memRead8, State.memWrite8, h, eq_comm]
  · simp [State.modifyByte, State.memRead8, h]

/-! ## The instruction stream and the stack -/

theorem State.fetch8_ok (s t : State) (v : Byte) :
    s.fetch8 = .ok (v, t) ↔ s.byteOk s.pc = true ∧ v = s.byteAt s.pc ∧ t = { s with pc := s.pc + 1 } := by
  by_cases h : s.byteOk s.pc = true
  · simp [State.fetch8, State.memRead8, h, eq_comm]
  · simp [State.fetch8, State.memRead8, h]

theorem State.fetch16_ok (s t : State) (v : Word) :
    s.fetch16 = .ok (v, t) ↔ s.wordOk s.pc = true ∧ v = s.wordAt s.pc ∧ t = { s with pc := s.pc + 2 } := by
  by_cases h : s.wordOk s.pc = true
  · simp [State.fetch16, State.memRead16, h, eq_comm]
  · simp [State.fetch16, State.memRead16, h]

theorem State.push16_ok (s t : State) (v : Word) :
    s.push16 v = .ok t ↔
      s.wordOk (s.sp - 2) = true ∧
      t = { s with
            sp := s.sp - 2
            mem := (s.mem.put (s.sp - 2).toNat (loByte v)).put ((s.sp - 2).toNat + 1) (hiByte v) } := by
  rw [State.push16, State.memWrite16_ok]
  rfl

theorem State.pop16_ok (s t : State) (v : Word) :
    s.pop16 = .ok (v, t) ↔ s.wordOk s.sp = true ∧ v = s.wordAt s.sp ∧ t = { s with sp := s.sp + 2 } := by
  by_cases h : s.wordOk s.sp = true
  · simp [State.pop16, State.memRead16, h, eq_comm]
  · simp [State.pop16, State.memRead16, h]

/-! ## Control transfers -/

theorem State.call_next (s t : State) (nn : Word) :
    s.call nn = .next t ↔ ∃ u, s.push16 s.pc = .ok u ∧ t = u.jump nn := by
  unfold State.call
  cases s.push16 s.pc <;> simp [eq_comm]

theorem State.doRet_next (s t : State) :
    s.doRet = .next t ↔
      s.wordOk s.sp = true ∧
      t = { s with
            sp := s.sp + 2
            pc := s.wordAt s.sp
            running := if s.wordAt s.sp = 0x0000 then false else s.running } := by
  by_cases h : s.wordOk s.sp = true
  · by_cases hv : s.wordAt s.sp = 0x0000 <;>
      simp only [State.doRet, State.pop16, State.memRead16, h, hv, if_true, if_false, true_and,
        Host.Outcome.next.injEq, State.stop, State.jump] <;> exact eq_comm
  · simp [State.doRet, State.pop16, State.memRead16, h]

end Sys2Proof.Machine
end

