-- ==== Sys2Proof/Laws/Block.lean ====
section
/-! SUPPORT. The block instructions: what one pass answers, and the induction over the passes of the sequencer
(48_block.md R370, R380). -/

namespace Sys2Proof.Machine

/-! ## One pass -/

theorem State.ldx_ok (s t : State) (d : Word) :
    s.ldx d = .ok t ↔
      s.byteOk s.hl = true ∧ s.byteOk s.de = true ∧
      t = ((((State.setHl { s with mem := s.mem.put s.de.toNat (s.byteAt s.hl) } (s.hl + d)).setDe
              (s.de + d)).setBc (s.bc - 1)).setF (ldxFlags s.main.f s.main.a (s.byteAt s.hl) (s.bc - 1))) := by
  by_cases hr : s.byteOk s.hl = true
  · by_cases hw : s.byteOk s.de = true
    · simp [State.ldx, State.memRead8, State.memWrite8, hr, hw, eq_comm]
    · simp [State.ldx, State.memRead8, State.memWrite8, hr, hw]
  · simp [State.ldx, State.memRead8, hr]

theorem State.cpx_ok (s t : State) (d : Word) :
    s.cpx d = .ok t ↔
      s.byteOk s.hl = true ∧
      t = (((s.setHl (s.hl + d)).setBc (s.bc - 1)).setF
            (cpxFlags s.main.f s.main.a (s.byteAt s.hl) (s.bc - 1))) := by
  by_cases hr : s.byteOk s.hl = true
  · simp [State.cpx, State.memRead8, hr, eq_comm]
  · simp [State.cpx, State.memRead8, hr]

/-- A pass of a transfer, field by field. -/
theorem State.ldx_fields (s t : State) (d : Word) (h : s.ldx d = .ok t) :
    t.hl = s.hl + d ∧ t.de = s.de + d ∧ t.bc = s.bc - 1 ∧ t.main.a = s.main.a ∧
    t = { s with main := t.main, mem := t.mem } := by
  obtain ⟨-, -, rfl⟩ := (s.ldx_ok t d).1 h
  refine ⟨?_, ?_, ?_, rfl, rfl⟩ <;> simp [State.setF_hl, State.setF_de, State.setF_bc]

/-- A pass of a search, field by field. -/
theorem State.cpx_fields (s t : State) (d : Word) (h : s.cpx d = .ok t) :
    t.hl = s.hl + d ∧ t.de = s.de ∧ t.bc = s.bc - 1 ∧ t.main.a = s.main.a ∧ t = { s with main := t.main } := by
  obtain ⟨-, rfl⟩ := (s.cpx_ok t d).1 h
  refine ⟨?_, rfl, ?_, rfl, rfl⟩ <;> simp [State.setF_hl, State.setF_bc]

/-! ## The sequencer -/

@[simp] theorem blockLoop_zero (body : State → Except Fault State) (done : State → Bool) (s : State) :
    blockLoop body done 0 s = .ok s := rfl

theorem blockLoop_succ (body : State → Except Fault State) (done : State → Bool) (n : Nat) (s u : State)
    (h : body s = .ok u) :
    blockLoop body done (n + 1) s = if done u then .ok u else blockLoop body done n u := by
  simp [blockLoop, h]

/-- The induction over the passes: what every pass keeps, the whole loop keeps. -/
theorem blockLoop_keeps (P : State → Prop) (body : State → Except Fault State) (done : State → Bool)
    (hbody : ∀ s u, P s → body s = .ok u → P u) :
    ∀ (n : Nat) (s t : State), P s → blockLoop body done n s = .ok t → P t
  | 0, s, t, hs, h => by cases h; exact hs
  | n + 1, s, t, hs, h => by
    simp only [blockLoop] at h
    split at h
    · cases h
    · rename_i u hu
      split at h
      · cases h; exact hbody s _ hs hu
      · exact blockLoop_keeps P body done hbody n u t (hbody s u hs hu) h

/-- A loop whose body always answers, and which ends at the latest when its passes run out, answers a state in which
it is done. -/
theorem blockLoop_total (P : Nat → State → Prop) (body : State → Except Fault State) (done : State → Bool)
    (hbody : ∀ n s, P (n + 1) s → ∃ u, body s = .ok u ∧ (done u = true ∨ P n u))
    (hzero : ∀ s, ¬ P 0 s) :
    ∀ (n : Nat) (s : State), P n s → ∃ t, blockLoop body done n s = .ok t ∧ done t = true
  | 0, s, h => absurd h (hzero s)
  | n + 1, s, h => by
    obtain ⟨u, hu, hd⟩ := hbody n s h
    rw [blockLoop_succ body done n s u hu]
    by_cases hdu : done u = true
    · exact ⟨u, by simp [hdu], hdu⟩
    · obtain ⟨t, ht, hdt⟩ := blockLoop_total P body done hbody hzero n u (hd.resolve_left hdu)
      exact ⟨t, by simp [hdu, ht], hdt⟩

/-- The passes left after one that did not bring BC to zero. -/
theorem passes_pred (bc : Word) (h : bc - 1 ≠ 0) : passes bc = passes (bc - 1) + 1 := by
  have h1 : (bc - 1).toNat ≠ 0 := fun hc => h (BitVec.eq_of_toNat_eq hc)
  have h2 : (bc - 1 - 1).toNat = (bc - 1).toNat - 1 := by
    have := (bc - 1).isLt
    rw [BitVec.toNat_sub (bc - 1) 1, show (1 : Word).toNat = 1 from rfl]
    omega
  unfold passes
  omega

theorem passes_pos (bc : Word) : 0 < passes bc := Nat.succ_pos _

/-- R380: `BC` itself, or 65536 for 0. -/
theorem passes_eq (bc : Word) : passes bc = if bc = 0 then 65536 else bc.toNat := by
  unfold passes
  split
  · subst bc; rfl
  · rename_i h
    have h1 : bc.toNat ≠ 0 := fun hc => h (BitVec.eq_of_toNat_eq hc)
    have := bc.isLt
    rw [BitVec.toNat_sub, show (1 : Word).toNat = 1 from rfl]
    omega

end Sys2Proof.Machine
end

