-- ==== Sys2Proof/Laws/Exec.lean ====
section
/-! SUPPORT. `exec` of each constructor is its meaning: one lemma per arm, so that no proof unfolds the dispatch. -/

namespace Sys2Proof.Machine

theorem exec_nop (s : State) : exec .nop s = execNop s := rfl
theorem exec_ldRrNn (p : Pair) (nn : Word) (s : State) : exec (.ldRrNn p nn) s = execLdRrNn p nn s := rfl
theorem exec_ldMemBcA (s : State) : exec .ldMemBcA s = execLdMemBcA s := rfl
theorem exec_ldMemDeA (s : State) : exec .ldMemDeA s = execLdMemDeA s := rfl
theorem exec_ldAMemBc (s : State) : exec .ldAMemBc s = execLdAMemBc s := rfl
theorem exec_ldAMemDe (s : State) : exec .ldAMemDe s = execLdAMemDe s := rfl
theorem exec_incRr (p : Pair) (s : State) : exec (.incRr p) s = execIncRr p s := rfl
theorem exec_decRr (p : Pair) (s : State) : exec (.decRr p) s = execDecRr p s := rfl
theorem exec_addHlRr (p : Pair) (s : State) : exec (.addHlRr p) s = execAddHlRr p s := rfl
theorem exec_incR (r : Reg8) (s : State) : exec (.incR r) s = execIncR r s := rfl
theorem exec_incMemHl (s : State) : exec .incMemHl s = execIncMemHl s := rfl
theorem exec_decR (r : Reg8) (s : State) : exec (.decR r) s = execDecR r s := rfl
theorem exec_decMemHl (s : State) : exec .decMemHl s = execDecMemHl s := rfl
theorem exec_ldRN (r : Reg8) (n : Byte) (s : State) : exec (.ldRN r n) s = execLdRN r n s := rfl
theorem exec_ldMemHlN (n : Byte) (s : State) : exec (.ldMemHlN n) s = execLdMemHlN n s := rfl
theorem exec_rlca (s : State) : exec .rlca s = execRlca s := rfl
theorem exec_rrca (s : State) : exec .rrca s = execRrca s := rfl
theorem exec_rla (s : State) : exec .rla s = execRla s := rfl
theorem exec_rra (s : State) : exec .rra s = execRra s := rfl
theorem exec_exAfAf (s : State) : exec .exAfAf s = execExAfAf s := rfl
theorem exec_djnz (e : Byte) (s : State) : exec (.djnz e) s = execDjnz e s := rfl
theorem exec_jr (e : Byte) (s : State) : exec (.jr e) s = execJr e s := rfl
theorem exec_jrCc (cc : CondShort) (e : Byte) (s : State) : exec (.jrCc cc e) s = execJrCc cc e s := rfl
theorem exec_ldMemNnHl (nn : Word) (s : State) : exec (.ldMemNnHl nn) s = execLdMemNnHl nn s := rfl
theorem exec_ldHlMemNn (nn : Word) (s : State) : exec (.ldHlMemNn nn) s = execLdHlMemNn nn s := rfl
theorem exec_ldMemNnA (nn : Word) (s : State) : exec (.ldMemNnA nn) s = execLdMemNnA nn s := rfl
theorem exec_ldAMemNn (nn : Word) (s : State) : exec (.ldAMemNn nn) s = execLdAMemNn nn s := rfl
theorem exec_daa (s : State) : exec .daa s = execDaa s := rfl
theorem exec_cpl (s : State) : exec .cpl s = execCpl s := rfl
theorem exec_scf (s : State) : exec .scf s = execScf s := rfl
theorem exec_ccf (s : State) : exec .ccf s = execCcf s := rfl
theorem exec_ldRR (r : Reg8) (r' : Reg8) (s : State) : exec (.ldRR r r') s = execLdRR r r' s := rfl
theorem exec_ldRMemHl (r : Reg8) (s : State) : exec (.ldRMemHl r) s = execLdRMemHl r s := rfl
theorem exec_ldMemHlR (r : Reg8) (s : State) : exec (.ldMemHlR r) s = execLdMemHlR r s := rfl
theorem exec_halt (s : State) : exec .halt s = execHalt s := rfl
theorem exec_addAR (r : Reg8) (s : State) : exec (.addAR r) s = execAddAR r s := rfl
theorem exec_addAMemHl (s : State) : exec .addAMemHl s = execAddAMemHl s := rfl
theorem exec_addAN (n : Byte) (s : State) : exec (.addAN n) s = execAddAN n s := rfl
theorem exec_adcAR (r : Reg8) (s : State) : exec (.adcAR r) s = execAdcAR r s := rfl
theorem exec_adcAMemHl (s : State) : exec .adcAMemHl s = execAdcAMemHl s := rfl
theorem exec_adcAN (n : Byte) (s : State) : exec (.adcAN n) s = execAdcAN n s := rfl
theorem exec_subR (r : Reg8) (s : State) : exec (.subR r) s = execSubR r s := rfl
theorem exec_subMemHl (s : State) : exec .subMemHl s = execSubMemHl s := rfl
theorem exec_subN (n : Byte) (s : State) : exec (.subN n) s = execSubN n s := rfl
theorem exec_sbcAR (r : Reg8) (s : State) : exec (.sbcAR r) s = execSbcAR r s := rfl
theorem exec_sbcAMemHl (s : State) : exec .sbcAMemHl s = execSbcAMemHl s := rfl
theorem exec_sbcAN (n : Byte) (s : State) : exec (.sbcAN n) s = execSbcAN n s := rfl
theorem exec_andR (r : Reg8) (s : State) : exec (.andR r) s = execAndR r s := rfl
theorem exec_andMemHl (s : State) : exec .andMemHl s = execAndMemHl s := rfl
theorem exec_andN (n : Byte) (s : State) : exec (.andN n) s = execAndN n s := rfl
theorem exec_xorR (r : Reg8) (s : State) : exec (.xorR r) s = execXorR r s := rfl
theorem exec_xorMemHl (s : State) : exec .xorMemHl s = execXorMemHl s := rfl
theorem exec_xorN (n : Byte) (s : State) : exec (.xorN n) s = execXorN n s := rfl
theorem exec_orR (r : Reg8) (s : State) : exec (.orR r) s = execOrR r s := rfl
theorem exec_orMemHl (s : State) : exec .orMemHl s = execOrMemHl s := rfl
theorem exec_orN (n : Byte) (s : State) : exec (.orN n) s = execOrN n s := rfl
theorem exec_cpR (r : Reg8) (s : State) : exec (.cpR r) s = execCpR r s := rfl
theorem exec_cpMemHl (s : State) : exec .cpMemHl s = execCpMemHl s := rfl
theorem exec_cpN (n : Byte) (s : State) : exec (.cpN n) s = execCpN n s := rfl
theorem exec_retCc (cc : Cond) (s : State) : exec (.retCc cc) s = execRetCc cc s := rfl
theorem exec_popQq (q : PairQ) (s : State) : exec (.popQq q) s = execPopQq q s := rfl
theorem exec_jpCcNn (cc : Cond) (nn : Word) (s : State) : exec (.jpCcNn cc nn) s = execJpCcNn cc nn s := rfl
theorem exec_jpNn (nn : Word) (s : State) : exec (.jpNn nn) s = execJpNn nn s := rfl
theorem exec_callCcNn (cc : Cond) (nn : Word) (s : State) : exec (.callCcNn cc nn) s = execCallCcNn cc nn s := rfl
theorem exec_pushQq (q : PairQ) (s : State) : exec (.pushQq q) s = execPushQq q s := rfl
theorem exec_rst0 (s : State) : exec .rst0 s = execRst0 s := rfl
theorem exec_rstP (y : Field3) (s : State) : exec (.rstP y) s = execRstP y s := rfl
theorem exec_ret (s : State) : exec .ret s = execRet s := rfl
theorem exec_cbEscape (s : State) : exec .cbEscape s = execCbEscape s := rfl
theorem exec_callNn (nn : Word) (s : State) : exec (.callNn nn) s = execCallNn nn s := rfl
theorem exec_outNA (n : Byte) (s : State) : exec (.outNA n) s = execOutNA n s := rfl
theorem exec_exx (s : State) : exec .exx s = execExx s := rfl
theorem exec_inAN (n : Byte) (s : State) : exec (.inAN n) s = execInAN n s := rfl
theorem exec_ddPrefix (s : State) : exec .ddPrefix s = execDdPrefix s := rfl
theorem exec_exMemSpHl (s : State) : exec .exMemSpHl s = execExMemSpHl s := rfl
theorem exec_jpHl (s : State) : exec .jpHl s = execJpHl s := rfl
theorem exec_exDeHl (s : State) : exec .exDeHl s = execExDeHl s := rfl
theorem exec_edEscape (s : State) : exec .edEscape s = execEdEscape s := rfl
theorem exec_di (s : State) : exec .di s = execDi s := rfl
theorem exec_ldSpHl (s : State) : exec .ldSpHl s = execLdSpHl s := rfl
theorem exec_ei (s : State) : exec .ei s = execEi s := rfl
theorem exec_fdPrefix (s : State) : exec .fdPrefix s = execFdPrefix s := rfl
theorem exec_addIxRr (j : IdxReg) (p : PairX) (s : State) : exec (.addIxRr j p) s = execAddIxRr j p s := rfl
theorem exec_ldIxNn (j : IdxReg) (nn : Word) (s : State) : exec (.ldIxNn j nn) s = execLdIxNn j nn s := rfl
theorem exec_ldMemNnIx (j : IdxReg) (nn : Word) (s : State) : exec (.ldMemNnIx j nn) s = execLdMemNnIx j nn s := rfl
theorem exec_incIx (j : IdxReg) (s : State) : exec (.incIx j) s = execIncIx j s := rfl
theorem exec_ldIxMemNn (j : IdxReg) (nn : Word) (s : State) : exec (.ldIxMemNn j nn) s = execLdIxMemNn j nn s := rfl
theorem exec_decIx (j : IdxReg) (s : State) : exec (.decIx j) s = execDecIx j s := rfl
theorem exec_incIxHalf (j : IdxReg) (h : Half) (s : State) : exec (.incIxHalf j h) s = execIncIxHalf j h s := rfl
theorem exec_decIxHalf (j : IdxReg) (h : Half) (s : State) : exec (.decIxHalf j h) s = execDecIxHalf j h s := rfl
theorem exec_ldIxHalfN (j : IdxReg) (h : Half) (n : Byte) (s : State) :
    exec (.ldIxHalfN j h n) s = execLdIxHalfN j h n s := rfl
theorem exec_incMemIx (j : IdxReg) (d : Byte) (s : State) : exec (.incMemIx j d) s = execIncMemIx j d s := rfl
theorem exec_decMemIx (j : IdxReg) (d : Byte) (s : State) : exec (.decMemIx j d) s = execDecMemIx j d s := rfl
theorem exec_ldMemIxN (j : IdxReg) (d : Byte) (n : Byte) (s : State) :
    exec (.ldMemIxN j d n) s = execLdMemIxN j d n s := rfl
theorem exec_ldXX (j : IdxReg) (x : RegX) (x' : RegX) (s : State) : exec (.ldXX j x x') s = execLdXX j x x' s := rfl
theorem exec_ldRMemIx (j : IdxReg) (r : Reg8) (d : Byte) (s : State) :
    exec (.ldRMemIx j r d) s = execLdRMemIx j r d s := rfl
theorem exec_ldMemIxR (j : IdxReg) (d : Byte) (r : Reg8) (s : State) :
    exec (.ldMemIxR j d r) s = execLdMemIxR j d r s := rfl
theorem exec_addAIxHalf (j : IdxReg) (h : Half) (s : State) : exec (.addAIxHalf j h) s = execAddAIxHalf j h s := rfl
theorem exec_addAMemIx (j : IdxReg) (d : Byte) (s : State) : exec (.addAMemIx j d) s = execAddAMemIx j d s := rfl
theorem exec_adcAIxHalf (j : IdxReg) (h : Half) (s : State) : exec (.adcAIxHalf j h) s = execAdcAIxHalf j h s := rfl
theorem exec_adcAMemIx (j : IdxReg) (d : Byte) (s : State) : exec (.adcAMemIx j d) s = execAdcAMemIx j d s := rfl
theorem exec_subIxHalf (j : IdxReg) (h : Half) (s : State) : exec (.subIxHalf j h) s = execSubIxHalf j h s := rfl
theorem exec_subMemIx (j : IdxReg) (d : Byte) (s : State) : exec (.subMemIx j d) s = execSubMemIx j d s := rfl
theorem exec_sbcAIxHalf (j : IdxReg) (h : Half) (s : State) : exec (.sbcAIxHalf j h) s = execSbcAIxHalf j h s := rfl
theorem exec_sbcAMemIx (j : IdxReg) (d : Byte) (s : State) : exec (.sbcAMemIx j d) s = execSbcAMemIx j d s := rfl
theorem exec_andIxHalf (j : IdxReg) (h : Half) (s : State) : exec (.andIxHalf j h) s = execAndIxHalf j h s := rfl
theorem exec_andMemIx (j : IdxReg) (d : Byte) (s : State) : exec (.andMemIx j d) s = execAndMemIx j d s := rfl
theorem exec_xorIxHalf (j : IdxReg) (h : Half) (s : State) : exec (.xorIxHalf j h) s = execXorIxHalf j h s := rfl
theorem exec_xorMemIx (j : IdxReg) (d : Byte) (s : State) : exec (.xorMemIx j d) s = execXorMemIx j d s := rfl
theorem exec_orIxHalf (j : IdxReg) (h : Half) (s : State) : exec (.orIxHalf j h) s = execOrIxHalf j h s := rfl
theorem exec_orMemIx (j : IdxReg) (d : Byte) (s : State) : exec (.orMemIx j d) s = execOrMemIx j d s := rfl
theorem exec_cpIxHalf (j : IdxReg) (h : Half) (s : State) : exec (.cpIxHalf j h) s = execCpIxHalf j h s := rfl
theorem exec_cpMemIx (j : IdxReg) (d : Byte) (s : State) : exec (.cpMemIx j d) s = execCpMemIx j d s := rfl
theorem exec_cbEscapeIndexed (j : IdxReg) (s : State) : exec (.cbEscapeIndexed j) s = execCbEscapeIndexed j s := rfl
theorem exec_popIx (j : IdxReg) (s : State) : exec (.popIx j) s = execPopIx j s := rfl
theorem exec_exMemSpIx (j : IdxReg) (s : State) : exec (.exMemSpIx j) s = execExMemSpIx j s := rfl
theorem exec_pushIx (j : IdxReg) (s : State) : exec (.pushIx j) s = execPushIx j s := rfl
theorem exec_jpIx (j : IdxReg) (s : State) : exec (.jpIx j) s = execJpIx j s := rfl
theorem exec_ldSpIx (j : IdxReg) (s : State) : exec (.ldSpIx j) s = execLdSpIx j s := rfl
theorem exec_prefixDiscarded (j : IdxReg) (op : Byte) (s : State) :
    exec (.prefixDiscarded j op) s = execPrefixDiscarded j op s := rfl
theorem exec_rlcR (r : Reg8) (s : State) : exec (.rlcR r) s = execRlcR r s := rfl
theorem exec_rlcMemHl (s : State) : exec .rlcMemHl s = execRlcMemHl s := rfl
theorem exec_rrcR (r : Reg8) (s : State) : exec (.rrcR r) s = execRrcR r s := rfl
theorem exec_rrcMemHl (s : State) : exec .rrcMemHl s = execRrcMemHl s := rfl
theorem exec_rlR (r : Reg8) (s : State) : exec (.rlR r) s = execRlR r s := rfl
theorem exec_rlMemHl (s : State) : exec .rlMemHl s = execRlMemHl s := rfl
theorem exec_rrR (r : Reg8) (s : State) : exec (.rrR r) s = execRrR r s := rfl
theorem exec_rrMemHl (s : State) : exec .rrMemHl s = execRrMemHl s := rfl
theorem exec_slaR (r : Reg8) (s : State) : exec (.slaR r) s = execSlaR r s := rfl
theorem exec_slaMemHl (s : State) : exec .slaMemHl s = execSlaMemHl s := rfl
theorem exec_sraR (r : Reg8) (s : State) : exec (.sraR r) s = execSraR r s := rfl
theorem exec_sraMemHl (s : State) : exec .sraMemHl s = execSraMemHl s := rfl
theorem exec_sllR (r : Reg8) (s : State) : exec (.sllR r) s = execSllR r s := rfl
theorem exec_sllMemHl (s : State) : exec .sllMemHl s = execSllMemHl s := rfl
theorem exec_srlR (r : Reg8) (s : State) : exec (.srlR r) s = execSrlR r s := rfl
theorem exec_srlMemHl (s : State) : exec .srlMemHl s = execSrlMemHl s := rfl
theorem exec_bitR (b : Field3) (r : Reg8) (s : State) : exec (.bitR b r) s = execBitR b r s := rfl
theorem exec_bitMemHl (b : Field3) (s : State) : exec (.bitMemHl b) s = execBitMemHl b s := rfl
theorem exec_resR (b : Field3) (r : Reg8) (s : State) : exec (.resR b r) s = execResR b r s := rfl
theorem exec_resMemHl (b : Field3) (s : State) : exec (.resMemHl b) s = execResMemHl b s := rfl
theorem exec_setR (b : Field3) (r : Reg8) (s : State) : exec (.setR b r) s = execSetR b r s := rfl
theorem exec_setMemHl (b : Field3) (s : State) : exec (.setMemHl b) s = execSetMemHl b s := rfl
theorem exec_rlcMemIx (j : IdxReg) (d : Byte) (s : State) : exec (.rlcMemIx j d) s = execRlcMemIx j d s := rfl
theorem exec_rrcMemIx (j : IdxReg) (d : Byte) (s : State) : exec (.rrcMemIx j d) s = execRrcMemIx j d s := rfl
theorem exec_rlMemIx (j : IdxReg) (d : Byte) (s : State) : exec (.rlMemIx j d) s = execRlMemIx j d s := rfl
theorem exec_rrMemIx (j : IdxReg) (d : Byte) (s : State) : exec (.rrMemIx j d) s = execRrMemIx j d s := rfl
theorem exec_slaMemIx (j : IdxReg) (d : Byte) (s : State) : exec (.slaMemIx j d) s = execSlaMemIx j d s := rfl
theorem exec_sraMemIx (j : IdxReg) (d : Byte) (s : State) : exec (.sraMemIx j d) s = execSraMemIx j d s := rfl
theorem exec_sllMemIx (j : IdxReg) (d : Byte) (s : State) : exec (.sllMemIx j d) s = execSllMemIx j d s := rfl
theorem exec_srlMemIx (j : IdxReg) (d : Byte) (s : State) : exec (.srlMemIx j d) s = execSrlMemIx j d s := rfl
theorem exec_bitMemIx (b : Field3) (j : IdxReg) (d : Byte) (s : State) :
    exec (.bitMemIx b j d) s = execBitMemIx b j d s := rfl
theorem exec_resMemIx (b : Field3) (j : IdxReg) (d : Byte) (s : State) :
    exec (.resMemIx b j d) s = execResMemIx b j d s := rfl
theorem exec_setMemIx (b : Field3) (j : IdxReg) (d : Byte) (s : State) :
    exec (.setMemIx b j d) s = execSetMemIx b j d s := rfl
theorem exec_idxCbOther (j : IdxReg) (d : Byte) (op : Byte) (s : State) :
    exec (.idxCbOther j d op) s = execIdxCbOther j d op s := rfl
theorem exec_sbcHlRr (p : Pair) (s : State) : exec (.sbcHlRr p) s = execSbcHlRr p s := rfl
theorem exec_adcHlRr (p : Pair) (s : State) : exec (.adcHlRr p) s = execAdcHlRr p s := rfl
theorem exec_ldMemNnRr (p : Pair) (nn : Word) (s : State) : exec (.ldMemNnRr p nn) s = execLdMemNnRr p nn s := rfl
theorem exec_ldRrMemNn (p : Pair) (nn : Word) (s : State) : exec (.ldRrMemNn p nn) s = execLdRrMemNn p nn s := rfl
theorem exec_neg (s : State) : exec .neg s = execNeg s := rfl
theorem exec_ldAI (s : State) : exec .ldAI s = execLdAI s := rfl
theorem exec_rrd (s : State) : exec .rrd s = execRrd s := rfl
theorem exec_rld (s : State) : exec .rld s = execRld s := rfl
theorem exec_ldi (s : State) : exec .ldi s = execLdi s := rfl
theorem exec_cpi (s : State) : exec .cpi s = execCpi s := rfl
theorem exec_ldd (s : State) : exec .ldd s = execLdd s := rfl
theorem exec_cpd (s : State) : exec .cpd s = execCpd s := rfl
theorem exec_ldir (s : State) : exec .ldir s = execLdir s := rfl
theorem exec_cpir (s : State) : exec .cpir s = execCpir s := rfl
theorem exec_lddr (s : State) : exec .lddr s = execLddr s := rfl
theorem exec_cpdr (s : State) : exec .cpdr s = execCpdr s := rfl
theorem exec_edOther (op : Byte) (s : State) : exec (.edOther op) s = execEdOther op s := rfl

end Sys2Proof.Machine
end

