-- ==== Sys2Proof/Laws/Flags.lean ====
section
/-! SUPPORT. What each flag table says of each bit of F (41_flag_tables.md section 1), and the masks. -/

namespace Sys2Proof.Machine

@[simp] theorem flagIf_true (m : Byte) : flagIf true m = m := rfl
@[simp] theorem flagIf_false (m : Byte) : flagIf false m = 0 := rfl
@[simp] theorem carryByte_true : carryByte true = 1 := rfl
@[simp] theorem carryByte_false : carryByte false = 0 := rfl

/-- A flag mask taken on a condition has a bit exactly where the mask has it and the condition holds. -/
theorem getLsbD_flagIf (c : Bool) (m : Byte) (i : Nat) : (flagIf c m).getLsbD i = (c && m.getLsbD i) := by
  cases c <;> simp

/-! ## `sz`, `sz_bit`, `szp` (R161 to R163) -/

theorem sz_s (b : Byte) : (sz b).getLsbD 7 = b.getLsbD 7 := by revert b; decide +kernel
theorem sz_z (b : Byte) : (sz b).getLsbD 6 = decide (b = 0) := by revert b; decide +kernel
theorem sz_y (b : Byte) : (sz b).getLsbD 5 = b.getLsbD 5 := by revert b; decide +kernel
theorem sz_x (b : Byte) : (sz b).getLsbD 3 = b.getLsbD 3 := by revert b; decide +kernel
/-- H, P/V, N and C are clear in every entry of `sz`. -/
theorem sz_clear (b : Byte) : sz b &&& (hMask ||| vMask ||| nMask ||| cMask) = 0 := by revert b; decide +kernel

/-- `sz_bit` differs from `sz` at 0 only. -/
theorem szBit_of_ne (b : Byte) (h : b ≠ 0) : szBit b = sz b := by
  revert b; decide +kernel

theorem szp_v (b : Byte) : (szp b).getLsbD 2 = decide (popcount b % 2 = 0) := by revert b; decide +kernel
/-- H, N and C are clear in every entry of `szp`. -/
theorem szp_clear (b : Byte) : szp b &&& (hMask ||| nMask ||| cMask) = 0 := by revert b; decide +kernel

theorem popcount_le (b : Byte) : popcount b ≤ 8 := by revert b; decide +kernel

/-! ## `szhv_inc`, `szhv_dec` (R164, R165) -/

/-- N and C are clear in every entry of `szhv_inc`. -/
theorem szhvInc_clear (b : Byte) : szhvInc b &&& (nMask ||| cMask) = 0 := by revert b; decide +kernel
/-- N is set and C clear in every entry of `szhv_dec`. -/
theorem szhvDec_nc (b : Byte) : szhvDec b &&& (nMask ||| cMask) = nMask := by revert b; decide +kernel

/-! ## Rotates and shifts (46_rotate_shift_bit.md) -/

/-- SLL never gives zero (R316). -/
theorem sll_ne_zero (v : Byte) : (sll v).new ≠ 0 := by revert v; decide +kernel
/-- A rotate to the left and one to the right cancel. -/
theorem rrc_rlc (v : Byte) : (rrc (rlc v).new).new = v := by revert v; decide +kernel

/-- Clearing and setting a bit act on that bit alone. -/
theorem resBit_getLsbD (b : Field3) (v : Byte) (i : Fin 8) :
    (resBit b v).getLsbD i = (v.getLsbD i && decide (i.val ≠ b.toNat)) := by
  revert b v i; decide +kernel

theorem setBit_getLsbD (b : Field3) (v : Byte) (i : Fin 8) :
    (setBit b v).getLsbD i = (v.getLsbD i || decide (i.val = b.toNat)) := by
  revert b v i; decide +kernel

end Sys2Proof.Machine
end

