-- ==== Sys2Proof/Laws/Meanings.lean ====
section
/-! SUPPORT. The meanings that chain several accesses: when each answers a next state, and which. -/

namespace Sys2Proof.Machine

theorem execPopQq_next (q : PairQ) (s t : State) :
    execPopQq q s = .next t ↔
      s.wordOk s.sp = true ∧ t = State.setPairQ { s with sp := s.sp + 2 } q (s.wordAt s.sp) := by
  by_cases h : s.wordOk s.sp = true
  · simp [execPopQq, State.pop16, State.memRead16, h, eq_comm]
  · simp [execPopQq, State.pop16, State.memRead16, h]

theorem execPopIx_next (j : IdxReg) (s t : State) :
    execPopIx j s = .next t ↔
      s.wordOk s.sp = true ∧ t = State.setIx { s with sp := s.sp + 2 } j (s.wordAt s.sp) := by
  by_cases h : s.wordOk s.sp = true
  · simp [execPopIx, State.pop16, State.memRead16, h, eq_comm]
  · simp [execPopIx, State.pop16, State.memRead16, h]

theorem execExMemSpHl_next (s t : State) :
    execExMemSpHl s = .next t ↔
      s.wordOk s.sp = true ∧
      t = State.setHl
            { s with mem := (s.mem.put s.sp.toNat (loByte s.hl)).put (s.sp.toNat + 1) (hiByte s.hl) }
            (s.wordAt s.sp) := by
  by_cases h : s.wordOk s.sp = true
  · simp [execExMemSpHl, State.memRead16, State.memWrite16, h, eq_comm]
  · simp [execExMemSpHl, State.memRead16, h]

theorem execExMemSpIx_next (j : IdxReg) (s t : State) :
    execExMemSpIx j s = .next t ↔
      s.wordOk s.sp = true ∧
      t = State.setIx
            { s with mem := (s.mem.put s.sp.toNat (loByte (s.getIx j))).put (s.sp.toNat + 1) (hiByte (s.getIx j)) }
            j (s.wordAt s.sp) := by
  by_cases h : s.wordOk s.sp = true
  · simp [execExMemSpIx, State.memRead16, State.memWrite16, h, eq_comm]
  · simp [execExMemSpIx, State.memRead16, h]

theorem State.rotDec_next (s t : State) (rot : Byte → Byte → Byte × Byte) :
    s.rotDec rot = .next t ↔
      s.byteOk s.hl = true ∧
      t = (State.setA { s with mem := s.mem.put s.hl.toNat (rot s.main.a (s.byteAt s.hl)).1 }
            (rot s.main.a (s.byteAt s.hl)).2).setF
              (rotDecFlags s.main.f (rot s.main.a (s.byteAt s.hl)).2) := by
  by_cases h : s.byteOk s.hl = true
  · simp [State.rotDec, State.memRead8, State.memWrite8, h, eq_comm]
  · simp [State.rotDec, State.memRead8, h]

/-! ## The repeating forms: what every pass keeps -/

/-- A repeated transfer changes nothing but the main set and memory, and in the main set not A. -/
theorem blockLoop_ldx_frame (d : Word) (done : State → Bool) (n : Nat) (s t : State)
    (h : blockLoop (State.ldx · d) done n s = .ok t) :
    t = { s with main := t.main, mem := t.mem } ∧ t.main.a = s.main.a := by
  refine blockLoop_keeps (fun u => u = { s with main := u.main, mem := u.mem } ∧ u.main.a = s.main.a) _ done ?_ n s t
    ⟨rfl, rfl⟩ h
  rintro u v ⟨hu, ha⟩ hv
  obtain ⟨-, -, -, ha', hv⟩ := u.ldx_fields v d hv
  exact ⟨by rw [hv, hu], ha'.trans ha⟩

/-- A repeated search changes nothing but the main set, and there not A and not DE. -/
theorem blockLoop_cpx_frame (d : Word) (done : State → Bool) (n : Nat) (s t : State)
    (h : blockLoop (State.cpx · d) done n s = .ok t) :
    t = { s with main := t.main } ∧ t.main.a = s.main.a ∧ t.main.d = s.main.d ∧ t.main.e = s.main.e := by
  refine blockLoop_keeps
    (fun u => u = { s with main := u.main } ∧ u.main.a = s.main.a ∧ u.main.d = s.main.d ∧ u.main.e = s.main.e) _ done ?_
    n s t ⟨rfl, rfl, rfl, rfl⟩ h
  rintro u v ⟨hu, ha, hd, he⟩ hv
  obtain ⟨-, rfl⟩ := (u.cpx_ok v d).1 hv
  exact ⟨by rw [hu]; rfl, ha, hd, he⟩

/-! ## The CB dispatch of the escape rows -/

theorem State.cbOnMem_next (s t : State) (op : Byte) (a : Word) :
    s.cbOnMem op a = .next t ↔
      s.byteOk a = true ∧
      t = if fieldX op = 1 then s.bitTest (field3Y op) (s.byteAt a)
          else State.setF { s with mem := s.mem.put a.toNat (cbWriteBack op s.main.f (s.byteAt a)).1 }
                 (cbWriteBack op s.main.f (s.byteAt a)).2 := by
  by_cases h : s.byteOk a = true
  · by_cases hx : fieldX op = 1
    · simp [State.cbOnMem, State.memRead8, h, hx, eq_comm]
    · simp [State.cbOnMem, State.memRead8, State.memWrite8, h, hx, eq_comm]
  · simp [State.cbOnMem, State.memRead8, h]

end Sys2Proof.Machine
end

