-- ==== Sys2Proof/Laws/PerInstr.lean ====
section
/-! SUPPORT. The per-instruction family EncodeLength: the encoder gives as many bytes as the `length` column of
spec/opcode_table.json says (30_encoding.md R99, R128). -/

namespace Sys2Proof.Laws

/-- The `length` column of spec/opcode_table.json, in bytes, without redundant prefixes; for the six rows that have
none (the decoder rows), the bytes of the row's own encoding. -/
def tableLength : Instr → Nat
  | .nop | .ldMemBcA | .ldMemDeA | .ldAMemBc | .ldAMemDe | .incRr _ | .decRr _ | .addHlRr _ | .incR _ | .incMemHl
  | .decR _ | .decMemHl | .rlca | .rrca | .rla | .rra | .exAfAf | .daa | .cpl | .scf | .ccf | .ldRR _ _
  | .ldRMemHl _ | .ldMemHlR _ | .halt | .addAR _ | .addAMemHl | .adcAR _ | .adcAMemHl | .subR _ | .subMemHl
  | .sbcAR _ | .sbcAMemHl | .andR _ | .andMemHl | .xorR _ | .xorMemHl | .orR _ | .orMemHl | .cpR _ | .cpMemHl
  | .retCc _ | .popQq _ | .pushQq _ | .rst0 | .rstP _ | .ret | .cbEscape | .exx | .ddPrefix | .exMemSpHl | .jpHl
  | .exDeHl | .edEscape | .di | .ldSpHl | .ei | .fdPrefix => 1
  | .ldRN _ _ | .ldMemHlN _ | .djnz _ | .jr _ | .jrCc _ _ | .addAN _ | .adcAN _ | .subN _ | .sbcAN _ | .andN _
  | .xorN _ | .orN _ | .cpN _ | .outNA _ | .inAN _ | .addIxRr _ _ | .incIx _ | .decIx _ | .incIxHalf _ _
  | .decIxHalf _ _ | .ldXX _ _ _ | .addAIxHalf _ _ | .adcAIxHalf _ _ | .subIxHalf _ _ | .sbcAIxHalf _ _
  | .andIxHalf _ _ | .xorIxHalf _ _ | .orIxHalf _ _ | .cpIxHalf _ _ | .cbEscapeIndexed _ | .popIx _ | .exMemSpIx _
  | .pushIx _ | .jpIx _ | .ldSpIx _ | .prefixDiscarded _ _ | .rlcR _ | .rlcMemHl | .rrcR _ | .rrcMemHl | .rlR _
  | .rlMemHl | .rrR _ | .rrMemHl | .slaR _ | .slaMemHl | .sraR _ | .sraMemHl | .sllR _ | .sllMemHl | .srlR _
  | .srlMemHl | .bitR _ _ | .bitMemHl _ | .resR _ _ | .resMemHl _ | .setR _ _ | .setMemHl _ | .sbcHlRr _
  | .adcHlRr _ | .neg | .ldAI | .rrd | .rld | .ldi | .cpi | .ldd | .cpd | .ldir | .cpir | .lddr | .cpdr | .edOther _
  => 2
  | .ldRrNn _ _ | .ldMemNnHl _ | .ldHlMemNn _ | .ldMemNnA _ | .ldAMemNn _ | .jpCcNn _ _ | .jpNn _ | .callCcNn _ _
  | .callNn _ | .ldIxHalfN _ _ _ | .incMemIx _ _ | .decMemIx _ _ | .ldRMemIx _ _ _ | .ldMemIxR _ _ _
  | .addAMemIx _ _ | .adcAMemIx _ _ | .subMemIx _ _ | .sbcAMemIx _ _ | .andMemIx _ _ | .xorMemIx _ _ | .orMemIx _ _
  | .cpMemIx _ _ => 3
  | .ldIxNn _ _ | .ldMemNnIx _ _ | .ldIxMemNn _ _ | .ldMemIxN _ _ _ | .rlcMemIx _ _ | .rrcMemIx _ _ | .rlMemIx _ _
  | .rrMemIx _ _ | .slaMemIx _ _ | .sraMemIx _ _ | .sllMemIx _ _ | .srlMemIx _ _ | .bitMemIx _ _ _ | .resMemIx _ _ _
  | .setMemIx _ _ _ | .idxCbOther _ _ _ | .ldMemNnRr _ _ | .ldRrMemNn _ _ => 4

end Sys2Proof.Laws

namespace Sys2Proof.Laws.EncodeLength

/-- The encoder gives as many bytes as the table says, at least one and at most four. -/
def Statement (i : Instr) : Prop := (encode i).length = tableLength i ∧ 1 ≤ tableLength i ∧ tableLength i ≤ 4

/-- Every instruction, in one case split; the lemmas below name its constructors. -/
theorem all (i : Instr) : Statement i := by
  cases i <;> simp [Statement, encode, tableLength]

theorem nop : Statement .nop := all _
theorem ldRrNn (p : Pair) (nn : Word) : Statement (.ldRrNn p nn) := all _
theorem ldMemBcA : Statement .ldMemBcA := all _
theorem ldMemDeA : Statement .ldMemDeA := all _
theorem ldAMemBc : Statement .ldAMemBc := all _
theorem ldAMemDe : Statement .ldAMemDe := all _
theorem incRr (p : Pair) : Statement (.incRr p) := all _
theorem decRr (p : Pair) : Statement (.decRr p) := all _
theorem addHlRr (p : Pair) : Statement (.addHlRr p) := all _
theorem incR (r : Reg8) : Statement (.incR r) := all _
theorem incMemHl : Statement .incMemHl := all _
theorem decR (r : Reg8) : Statement (.decR r) := all _
theorem decMemHl : Statement .decMemHl := all _
theorem ldRN (r : Reg8) (n : Byte) : Statement (.ldRN r n) := all _
theorem ldMemHlN (n : Byte) : Statement (.ldMemHlN n) := all _
theorem rlca : Statement .rlca := all _
theorem rrca : Statement .rrca := all _
theorem rla : Statement .rla := all _
theorem rra : Statement .rra := all _
theorem exAfAf : Statement .exAfAf := all _
theorem djnz (e : Byte) : Statement (.djnz e) := all _
theorem jr (e : Byte) : Statement (.jr e) := all _
theorem jrCc (cc : CondShort) (e : Byte) : Statement (.jrCc cc e) := all _
theorem ldMemNnHl (nn : Word) : Statement (.ldMemNnHl nn) := all _
theorem ldHlMemNn (nn : Word) : Statement (.ldHlMemNn nn) := all _
theorem ldMemNnA (nn : Word) : Statement (.ldMemNnA nn) := all _
theorem ldAMemNn (nn : Word) : Statement (.ldAMemNn nn) := all _
theorem daa : Statement .daa := all _
theorem cpl : Statement .cpl := all _
theorem scf : Statement .scf := all _
theorem ccf : Statement .ccf := all _
theorem ldRR (r : Reg8) (r' : Reg8) : Statement (.ldRR r r') := all _
theorem ldRMemHl (r : Reg8) : Statement (.ldRMemHl r) := all _
theorem ldMemHlR (r : Reg8) : Statement (.ldMemHlR r) := all _
theorem halt : Statement .halt := all _
theorem addAR (r : Reg8) : Statement (.addAR r) := all _
theorem addAMemHl : Statement .addAMemHl := all _
theorem addAN (n : Byte) : Statement (.addAN n) := all _
theorem adcAR (r : Reg8) : Statement (.adcAR r) := all _
theorem adcAMemHl : Statement .adcAMemHl := all _
theorem adcAN (n : Byte) : Statement (.adcAN n) := all _
theorem subR (r : Reg8) : Statement (.subR r) := all _
theorem subMemHl : Statement .subMemHl := all _
theorem subN (n : Byte) : Statement (.subN n) := all _
theorem sbcAR (r : Reg8) : Statement (.sbcAR r) := all _
theorem sbcAMemHl : Statement .sbcAMemHl := all _
theorem sbcAN (n : Byte) : Statement (.sbcAN n) := all _
theorem andR (r : Reg8) : Statement (.andR r) := all _
theorem andMemHl : Statement .andMemHl := all _
theorem andN (n : Byte) : Statement (.andN n) := all _
theorem xorR (r : Reg8) : Statement (.xorR r) := all _
theorem xorMemHl : Statement .xorMemHl := all _
theorem xorN (n : Byte) : Statement (.xorN n) := all _
theorem orR (r : Reg8) : Statement (.orR r) := all _
theorem orMemHl : Statement .orMemHl := all _
theorem orN (n : Byte) : Statement (.orN n) := all _
theorem cpR (r : Reg8) : Statement (.cpR r) := all _
theorem cpMemHl : Statement .cpMemHl := all _
theorem cpN (n : Byte) : Statement (.cpN n) := all _
theorem retCc (cc : Cond) : Statement (.retCc cc) := all _
theorem popQq (q : PairQ) : Statement (.popQq q) := all _
theorem jpCcNn (cc : Cond) (nn : Word) : Statement (.jpCcNn cc nn) := all _
theorem jpNn (nn : Word) : Statement (.jpNn nn) := all _
theorem callCcNn (cc : Cond) (nn : Word) : Statement (.callCcNn cc nn) := all _
theorem pushQq (q : PairQ) : Statement (.pushQq q) := all _
theorem rst0 : Statement .rst0 := all _
theorem rstP (y : Field3) : Statement (.rstP y) := all _
theorem ret : Statement .ret := all _
theorem cbEscape : Statement .cbEscape := all _
theorem callNn (nn : Word) : Statement (.callNn nn) := all _
theorem outNA (n : Byte) : Statement (.outNA n) := all _
theorem exx : Statement .exx := all _
theorem inAN (n : Byte) : Statement (.inAN n) := all _
theorem ddPrefix : Statement .ddPrefix := all _
theorem exMemSpHl : Statement .exMemSpHl := all _
theorem jpHl : Statement .jpHl := all _
theorem exDeHl : Statement .exDeHl := all _
theorem edEscape : Statement .edEscape := all _
theorem di : Statement .di := all _
theorem ldSpHl : Statement .ldSpHl := all _
theorem ei : Statement .ei := all _
theorem fdPrefix : Statement .fdPrefix := all _
theorem addIxRr (j : IdxReg) (p : PairX) : Statement (.addIxRr j p) := all _
theorem ldIxNn (j : IdxReg) (nn : Word) : Statement (.ldIxNn j nn) := all _
theorem ldMemNnIx (j : IdxReg) (nn : Word) : Statement (.ldMemNnIx j nn) := all _
theorem incIx (j : IdxReg) : Statement (.incIx j) := all _
theorem ldIxMemNn (j : IdxReg) (nn : Word) : Statement (.ldIxMemNn j nn) := all _
theorem decIx (j : IdxReg) : Statement (.decIx j) := all _
theorem incIxHalf (j : IdxReg) (h : Half) : Statement (.incIxHalf j h) := all _
theorem decIxHalf (j : IdxReg) (h : Half) : Statement (.decIxHalf j h) := all _
theorem ldIxHalfN (j : IdxReg) (h : Half) (n : Byte) : Statement (.ldIxHalfN j h n) := all _
theorem incMemIx (j : IdxReg) (d : Byte) : Statement (.incMemIx j d) := all _
theorem decMemIx (j : IdxReg) (d : Byte) : Statement (.decMemIx j d) := all _
theorem ldMemIxN (j : IdxReg) (d : Byte) (n : Byte) : Statement (.ldMemIxN j d n) := all _
theorem ldXX (j : IdxReg) (x : RegX) (x' : RegX) : Statement (.ldXX j x x') := all _
theorem ldRMemIx (j : IdxReg) (r : Reg8) (d : Byte) : Statement (.ldRMemIx j r d) := all _
theorem ldMemIxR (j : IdxReg) (d : Byte) (r : Reg8) : Statement (.ldMemIxR j d r) := all _
theorem addAIxHalf (j : IdxReg) (h : Half) : Statement (.addAIxHalf j h) := all _
theorem addAMemIx (j : IdxReg) (d : Byte) : Statement (.addAMemIx j d) := all _
theorem adcAIxHalf (j : IdxReg) (h : Half) : Statement (.adcAIxHalf j h) := all _
theorem adcAMemIx (j : IdxReg) (d : Byte) : Statement (.adcAMemIx j d) := all _
theorem subIxHalf (j : IdxReg) (h : Half) : Statement (.subIxHalf j h) := all _
theorem subMemIx (j : IdxReg) (d : Byte) : Statement (.subMemIx j d) := all _
theorem sbcAIxHalf (j : IdxReg) (h : Half) : Statement (.sbcAIxHalf j h) := all _
theorem sbcAMemIx (j : IdxReg) (d : Byte) : Statement (.sbcAMemIx j d) := all _
theorem andIxHalf (j : IdxReg) (h : Half) : Statement (.andIxHalf j h) := all _
theorem andMemIx (j : IdxReg) (d : Byte) : Statement (.andMemIx j d) := all _
theorem xorIxHalf (j : IdxReg) (h : Half) : Statement (.xorIxHalf j h) := all _
theorem xorMemIx (j : IdxReg) (d : Byte) : Statement (.xorMemIx j d) := all _
theorem orIxHalf (j : IdxReg) (h : Half) : Statement (.orIxHalf j h) := all _
theorem orMemIx (j : IdxReg) (d : Byte) : Statement (.orMemIx j d) := all _
theorem cpIxHalf (j : IdxReg) (h : Half) : Statement (.cpIxHalf j h) := all _
theorem cpMemIx (j : IdxReg) (d : Byte) : Statement (.cpMemIx j d) := all _
theorem cbEscapeIndexed (j : IdxReg) : Statement (.cbEscapeIndexed j) := all _
theorem popIx (j : IdxReg) : Statement (.popIx j) := all _
theorem exMemSpIx (j : IdxReg) : Statement (.exMemSpIx j) := all _
theorem pushIx (j : IdxReg) : Statement (.pushIx j) := all _
theorem jpIx (j : IdxReg) : Statement (.jpIx j) := all _
theorem ldSpIx (j : IdxReg) : Statement (.ldSpIx j) := all _
theorem prefixDiscarded (j : IdxReg) (op : Byte) : Statement (.prefixDiscarded j op) := all _
theorem rlcR (r : Reg8) : Statement (.rlcR r) := all _
theorem rlcMemHl : Statement .rlcMemHl := all _
theorem rrcR (r : Reg8) : Statement (.rrcR r) := all _
theorem rrcMemHl : Statement .rrcMemHl := all _
theorem rlR (r : Reg8) : Statement (.rlR r) := all _
theorem rlMemHl : Statement .rlMemHl := all _
theorem rrR (r : Reg8) : Statement (.rrR r) := all _
theorem rrMemHl : Statement .rrMemHl := all _
theorem slaR (r : Reg8) : Statement (.slaR r) := all _
theorem slaMemHl : Statement .slaMemHl := all _
theorem sraR (r : Reg8) : Statement (.sraR r) := all _
theorem sraMemHl : Statement .sraMemHl := all _
theorem sllR (r : Reg8) : Statement (.sllR r) := all _
theorem sllMemHl : Statement .sllMemHl := all _
theorem srlR (r : Reg8) : Statement (.srlR r) := all _
theorem srlMemHl : Statement .srlMemHl := all _
theorem bitR (b : Field3) (r : Reg8) : Statement (.bitR b r) := all _
theorem bitMemHl (b : Field3) : Statement (.bitMemHl b) := all _
theorem resR (b : Field3) (r : Reg8) : Statement (.resR b r) := all _
theorem resMemHl (b : Field3) : Statement (.resMemHl b) := all _
theorem setR (b : Field3) (r : Reg8) : Statement (.setR b r) := all _
theorem setMemHl (b : Field3) : Statement (.setMemHl b) := all _
theorem rlcMemIx (j : IdxReg) (d : Byte) : Statement (.rlcMemIx j d) := all _
theorem rrcMemIx (j : IdxReg) (d : Byte) : Statement (.rrcMemIx j d) := all _
theorem rlMemIx (j : IdxReg) (d : Byte) : Statement (.rlMemIx j d) := all _
theorem rrMemIx (j : IdxReg) (d : Byte) : Statement (.rrMemIx j d) := all _
theorem slaMemIx (j : IdxReg) (d : Byte) : Statement (.slaMemIx j d) := all _
theorem sraMemIx (j : IdxReg) (d : Byte) : Statement (.sraMemIx j d) := all _
theorem sllMemIx (j : IdxReg) (d : Byte) : Statement (.sllMemIx j d) := all _
theorem srlMemIx (j : IdxReg) (d : Byte) : Statement (.srlMemIx j d) := all _
theorem bitMemIx (b : Field3) (j : IdxReg) (d : Byte) : Statement (.bitMemIx b j d) := all _
theorem resMemIx (b : Field3) (j : IdxReg) (d : Byte) : Statement (.resMemIx b j d) := all _
theorem setMemIx (b : Field3) (j : IdxReg) (d : Byte) : Statement (.setMemIx b j d) := all _
theorem idxCbOther (j : IdxReg) (d : Byte) (op : Byte) : Statement (.idxCbOther j d op) := all _
theorem sbcHlRr (p : Pair) : Statement (.sbcHlRr p) := all _
theorem adcHlRr (p : Pair) : Statement (.adcHlRr p) := all _
theorem ldMemNnRr (p : Pair) (nn : Word) : Statement (.ldMemNnRr p nn) := all _
theorem ldRrMemNn (p : Pair) (nn : Word) : Statement (.ldRrMemNn p nn) := all _
theorem neg : Statement .neg := all _
theorem ldAI : Statement .ldAI := all _
theorem rrd : Statement .rrd := all _
theorem rld : Statement .rld := all _
theorem ldi : Statement .ldi := all _
theorem cpi : Statement .cpi := all _
theorem ldd : Statement .ldd := all _
theorem cpd : Statement .cpd := all _
theorem ldir : Statement .ldir := all _
theorem cpir : Statement .cpir := all _
theorem lddr : Statement .lddr := all _
theorem cpdr : Statement .cpdr := all _
theorem edOther (op : Byte) : Statement (.edOther op) := all _

end Sys2Proof.Laws.EncodeLength
end

