-- ==== Sys2Proof/Laws/Step.lean ====
section
/-! SUPPORT. The instruction cycle: what a fetch changes, and the one inversion lemma of a step
(40_instruction_cycle.md R130). -/

namespace Sys2Proof.Machine

/-! ## Fetching -/

/-- Absorbing prefix bytes moves PC and sets the latch, and nothing else. -/
theorem absorb_frame : ∀ (n : Nat) (s t : State) (op : Byte), absorb n s = .ok (op, t) →
    t = { s with pc := t.pc, latch := t.latch } ∧ op ≠ 0xDD ∧ op ≠ 0xFD
  | 0, _, _, _, h => by cases h
  | n + 1, s, t, op, h => by
    simp only [absorb] at h
    split at h
    · cases h
    · rename_i b u hb
      obtain ⟨-, -, rfl⟩ := (s.fetch8_ok u b).1 hb
      split at h
      · obtain ⟨ht, hop⟩ := absorb_frame n _ t op h
        exact ⟨by rw [ht]; rfl, hop⟩
      · split at h
        · obtain ⟨ht, hop⟩ := absorb_frame n _ t op h
          exact ⟨by rw [ht]; rfl, hop⟩
        · rename_i hdd hfd
          cases h
          exact ⟨rfl, hdd, hfd⟩

/-- Fetching the rest of an instruction moves PC and nothing else. -/
theorem fetchParse_frame : ∀ (p : Parse) (s t : State) (i : Instr), fetchParse p s = .ok (i, t) →
    t = { s with pc := t.pc }
  | .done _, s, t, i, h => by cases h; rfl
  | .byte k, s, t, i, h => by
    simp only [fetchParse] at h
    split at h
    · cases h
    · rename_i b u hb
      obtain ⟨-, -, rfl⟩ := (s.fetch8_ok u b).1 hb
      have := fetchParse_frame (k b) _ t i h
      rw [this]
  | .word k, s, t, i, h => by
    simp only [fetchParse] at h
    split at h
    · cases h
    · rename_i w u hw
      obtain ⟨-, -, rfl⟩ := (s.fetch16_ok u w).1 hw
      have := fetchParse_frame (k w) _ t i h
      rw [this]

/-- Fetching an instruction moves PC, leaves the latch NONE, and changes nothing else. -/
theorem fetchInstr_frame (s t : State) (i : Instr) (h : fetchInstr s = .ok (i, t)) :
    t = { s with pc := t.pc, latch := .none } := by
  unfold fetchInstr at h
  split at h
  · cases h
  · rename_i op u hu
    split at h
    · cases h
    · rename_i i' v hv
      obtain ⟨ha, -⟩ := absorb_frame _ _ _ _ hu
      have hp := fetchParse_frame _ _ _ _ hv
      cases h
      rw [hp, ha]
      rfl

/-! ## The step -/

/-- All that a step which answers a next state can be: the termination check, or the run of the fetched instruction. -/
theorem step_cases (s t : State) (h : step s = .next t) :
    s.running = true ∧
    ((s.atSentinel = true ∧ t = s.stop) ∨
     (s.atSentinel = false ∧
      ∃ i u, fetchInstr { s with starting := false } = .ok (i, u) ∧ exec i u = .next t)) := by
  rw [step, cycle] at h
  by_cases hr : s.running = true
  · refine ⟨hr, ?_⟩
    rw [if_neg (by simp [hr])] at h
    by_cases hs : s.atSentinel = true
    · rw [if_pos hs] at h
      cases h
      exact .inl ⟨hs, rfl⟩
    · rw [if_neg hs] at h
      refine .inr ⟨by simpa using hs, ?_⟩
      cases hf : fetchInstr { s with starting := false } with
      | error e => rw [hf] at h; cases h
      | ok r => rw [hf] at h; exact ⟨r.1, r.2, rfl, h⟩
  · rw [if_pos (by simp [hr])] at h
    cases h

/-- The step once its fetch is known. -/
theorem step_of_fetch (s u : State) (i : Instr) (hr : s.running = true) (hs : s.atSentinel = false)
    (hf : fetchInstr { s with starting := false } = .ok (i, u)) : step s = exec i u := by
  rw [step, cycle, if_neg (by simp [hr]), if_neg (by simp [hs]), hf]

/-! ## Decoding a list and fetching from memory run the same `Parse` -/

@[simp] theorem runList_done (i : Instr) (rest : List Byte) : (Parse.done i).runList rest = .ok (i, rest) := rfl
@[simp] theorem runList_byte (k : Byte → Parse) (b : Byte) (rest : List Byte) :
    (Parse.byte k).runList (b :: rest) = (k b).runList rest := rfl
@[simp] theorem runList_word (k : Word → Parse) (lo hi : Byte) (rest : List Byte) :
    (Parse.word k).runList (lo :: hi :: rest) = (k (joinBytes lo hi)).runList rest := rfl

/-- An opcode byte that is no prefix byte, decoded with the latch at NONE. -/
theorem decode_cons (op : Byte) (rest : List Byte) (h1 : op ≠ 0xDD) (h2 : op ≠ 0xFD) :
    decode (op :: rest) = (decodeMain op).runList rest := by
  rw [decode, decodeWith, if_neg h1, if_neg h2]
  rfl

/-- One prefix byte, then an opcode byte that is none. -/
theorem decode_pfx (j : IdxReg) (op : Byte) (rest : List Byte) (h1 : op ≠ 0xDD) (h2 : op ≠ 0xFD) :
    decode (j.pfx :: op :: rest) = (decodeIdx j op).runList rest := by
  cases j
  · rw [show decode (IdxReg.ix.pfx :: op :: rest) = decodeWith .dd (op :: rest) from rfl, decodeWith, if_neg h1,
      if_neg h2]
    rfl
  · rw [show decode (IdxReg.iy.pfx :: op :: rest) = decodeWith .fd (op :: rest) from rfl, decodeWith, if_neg h1,
      if_neg h2]
    rfl

end Sys2Proof.Machine
end

