-- ==== Sys2Proof/Tests/Slice0.lean ====
section
/-! SUPPORT. Tests of the model against the spec's encodings and worked vectors, and a witness for the hypotheses of
every statement. -/

namespace Sys2Proof.Tests

open Sys2Proof Sys2Proof.Machine

set_option Elab.async false

/-- The state one step after the code is placed at PC. -/
def after (code : List Byte) (s : State) : Option State :=
  match step (s.putCode s.pc code) with
  | .next t => some t
  | .fault _ | .refused _ => none

/-- The fault of the step after the code is placed at PC. -/
def stopOf (code : List Byte) (s : State) : Option Fault :=
  match step (s.putCode s.pc code) with
  | .fault e => some e
  | .next _ | .refused _ => none

/-- An instruction run alone. -/
def ran (i : Instr) (s : State) : Option State :=
  match exec i s with
  | .next t => some t
  | .fault _ | .refused _ => none

/-- The fault of an instruction run alone. -/
def faultOf (i : Instr) (s : State) : Option Fault :=
  match exec i s with
  | .fault e => some e
  | .next _ | .refused _ => none

/-! ## WellFormed: an ill-formed term for each check -/

/-- 47_control_flow.md R353, 42_load8.md R200, 40_instruction_cycle.md R135, 30_encoding.md R116, R123. -/
theorem test_ill_formed :
    (Instr.rstP 0).wf = false ∧ (Instr.ldXX .ix .b .c).wf = false ∧ (Instr.prefixDiscarded .ix 0x21).wf = false ∧
    (Instr.prefixDiscarded .iy 0xDD).wf = false ∧ (Instr.prefixDiscarded .iy 0xFD).wf = false ∧
    (Instr.idxCbOther .ix 0 0x06).wf = false ∧ (Instr.edOther 0xB0).wf = false ∧ (Instr.edOther 0x73).wf = false := by
  decide

/-- R128: a prefix or escape byte alone is no instruction. -/
theorem test_decoder_rows_ill_formed :
    Instr.cbEscape.wf = false ∧ Instr.edEscape.wf = false ∧ Instr.ddPrefix.wf = false ∧ Instr.fdPrefix.wf = false ∧
    (Instr.cbEscapeIndexed .ix).wf = false := by
  decide

theorem test_well_formed :
    (Instr.rstP 7).wf = true ∧ (Instr.ldXX .ix .b .lo).wf = true ∧ (Instr.ldXX .iy .hi .a).wf = true ∧
    (Instr.prefixDiscarded .ix 0xEB).wf = true ∧ (Instr.idxCbOther .ix 0 0x07).wf = true ∧
    (Instr.edOther 0x54).wf = true := by
  decide

/-! ## Decoding words written out bit by bit -/

/-- Rows of regime `main`, from the `encoding` column of the opcode table, field by field. -/
theorem test_decode_main_1 :
    decode [0b00000000] = .ok (.nop, []) ∧
    decode [0b00_10_0001, 0b00110110, 0b10011000] = .ok (.ldRrNn .hl 0x9836, []) ∧
    decode [0b00000010] = .ok (.ldMemBcA, []) ∧
    decode [0b00010010] = .ok (.ldMemDeA, []) ∧
    decode [0b00001010] = .ok (.ldAMemBc, []) ∧
    decode [0b00011010] = .ok (.ldAMemDe, []) ∧
    decode [0b00_01_0011] = .ok (.incRr .de, []) ∧
    decode [0b00_00_1011] = .ok (.decRr .bc, []) ∧
    decode [0b00_11_1001] = .ok (.addHlRr .sp, []) ∧
    decode [0b00_011_100] = .ok (.incR .e, []) ∧
    decode [0b00110100] = .ok (.incMemHl, []) ∧
    decode [0b00_010_101] = .ok (.decR .d, []) ∧
    decode [0b00110101] = .ok (.decMemHl, []) ∧
    decode [0b00_001_110, 0b00111101] = .ok (.ldRN .c 0x3D, []) :=
  ⟨rfl, rfl, rfl, rfl, rfl, rfl, rfl, rfl, rfl, rfl, rfl, rfl, rfl, rfl⟩

/-- Rows of regime `main`, from the `encoding` column of the opcode table, field by field. -/
theorem test_decode_main_2 :
    decode [0b00110110, 0b01001000] = .ok (.ldMemHlN 0x48, []) ∧
    decode [0b00000111] = .ok (.rlca, []) ∧
    decode [0b00001111] = .ok (.rrca, []) ∧
    decode [0b00010111] = .ok (.rla, []) ∧
    decode [0b00011111] = .ok (.rra, []) ∧
    decode [0b00001000] = .ok (.exAfAf, []) ∧
    decode [0b00010000, 0b11110110] = .ok (.djnz 0xF6, []) ∧
    decode [0b00011000, 0b11110110] = .ok (.jr 0xF6, []) ∧
    decode [0b001_11_000, 0b11110110] = .ok (.jrCc .c 0xF6, []) ∧
    decode [0b00100010, 0b01001100, 0b11011010] = .ok (.ldMemNnHl 0xDA4C, []) ∧
    decode [0b00101010, 0b01001101, 0b11011101] = .ok (.ldHlMemNn 0xDD4D, []) ∧
    decode [0b00110010, 0b01001110, 0b11100000] = .ok (.ldMemNnA 0xE04E, []) ∧
    decode [0b00111010, 0b01001111, 0b11100011] = .ok (.ldAMemNn 0xE34F, []) ∧
    decode [0b00100111] = .ok (.daa, []) :=
  ⟨rfl, rfl, rfl, rfl, rfl, rfl, rfl, rfl, rfl, rfl, rfl, rfl, rfl, rfl⟩

/-- Rows of regime `main`, from the `encoding` column of the opcode table, field by field. -/
theorem test_decode_main_3 :
    decode [0b00101111] = .ok (.cpl, []) ∧
    decode [0b00110111] = .ok (.scf, []) ∧
    decode [0b00111111] = .ok (.ccf, []) ∧
    decode [0b01_111_010] = .ok (.ldRR .a .d, []) ∧
    decode [0b01_010_110] = .ok (.ldRMemHl .d, []) ∧
    decode [0b01110_101] = .ok (.ldMemHlR .l, []) ∧
    decode [0b01110110] = .ok (.halt, []) ∧
    decode [0b10000_001] = .ok (.addAR .c, []) ∧
    decode [0b10000110] = .ok (.addAMemHl, []) ∧
    decode [0b11000110, 0b01000101] = .ok (.addAN 0x45, []) ∧
    decode [0b10001_010] = .ok (.adcAR .d, []) ∧
    decode [0b10001110] = .ok (.adcAMemHl, []) ∧
    decode [0b11001110, 0b01100110] = .ok (.adcAN 0x66, []) ∧
    decode [0b10010_011] = .ok (.subR .e, []) :=
  ⟨rfl, rfl, rfl, rfl, rfl, rfl, rfl, rfl, rfl, rfl, rfl, rfl, rfl, rfl⟩

/-- Rows of regime `main`, from the `encoding` column of the opcode table, field by field. -/
theorem test_decode_main_4 :
    decode [0b10010110] = .ok (.subMemHl, []) ∧
    decode [0b11010110, 0b10000111] = .ok (.subN 0x87, []) ∧
    decode [0b10011_100] = .ok (.sbcAR .h, []) ∧
    decode [0b10011110] = .ok (.sbcAMemHl, []) ∧
    decode [0b11011110, 0b10101000] = .ok (.sbcAN 0xA8, []) ∧
    decode [0b10100_101] = .ok (.andR .l, []) ∧
    decode [0b10100110] = .ok (.andMemHl, []) ∧
    decode [0b11100110, 0b11001001] = .ok (.andN 0xC9, []) ∧
    decode [0b10101_111] = .ok (.xorR .a, []) ∧
    decode [0b10101110] = .ok (.xorMemHl, []) ∧
    decode [0b11101110, 0b11101010] = .ok (.xorN 0xEA, []) ∧
    decode [0b10110_000] = .ok (.orR .b, []) ∧
    decode [0b10110110] = .ok (.orMemHl, []) ∧
    decode [0b11110110, 0b00001011] = .ok (.orN 0x0B, []) :=
  ⟨rfl, rfl, rfl, rfl, rfl, rfl, rfl, rfl, rfl, rfl, rfl, rfl, rfl, rfl⟩

/-- Rows of regime `main`, from the `encoding` column of the opcode table, field by field. -/
theorem test_decode_main_5 :
    decode [0b10111_001] = .ok (.cpR .c, []) ∧
    decode [0b10111110] = .ok (.cpMemHl, []) ∧
    decode [0b11111110, 0b00101100] = .ok (.cpN 0x2C, []) ∧
    decode [0b11_100_000] = .ok (.retCc .po, []) ∧
    decode [0b11_11_0001] = .ok (.popQq .af, []) ∧
    decode [0b11_110_010, 0b01110010, 0b01001100] = .ok (.jpCcNn .p 0x4C72, []) ∧
    decode [0b11000011, 0b01110011, 0b01001111] = .ok (.jpNn 0x4F73, []) ∧
    decode [0b11_000_100, 0b01110100, 0b01010010] = .ok (.callCcNn .nz 0x5274, []) ∧
    decode [0b11_11_0101] = .ok (.pushQq .af, []) ∧
    decode [0b11000111] = .ok (.rst0, []) ∧
    decode [0b11_101_111] = .ok (.rstP 5, []) ∧
    decode [0b11001001] = .ok (.ret, []) ∧
    decode [0b11001101, 0b01111001, 0b01100001] = .ok (.callNn 0x6179, []) ∧
    decode [0b11010011, 0b10100101] = .ok (.outNA 0xA5, []) :=
  ⟨rfl, rfl, rfl, rfl, rfl, rfl, rfl, rfl, rfl, rfl, rfl, rfl, rfl, rfl⟩

/-- Rows of regime `main`, from the `encoding` column of the opcode table, field by field. -/
theorem test_decode_main_6 :
    decode [0b11011001] = .ok (.exx, []) ∧
    decode [0b11011011, 0b10111011] = .ok (.inAN 0xBB, []) ∧
    decode [0b11100011] = .ok (.exMemSpHl, []) ∧
    decode [0b11101001] = .ok (.jpHl, []) ∧
    decode [0b11101011] = .ok (.exDeHl, []) ∧
    decode [0b11110011] = .ok (.di, []) ∧
    decode [0b11111001] = .ok (.ldSpHl, []) ∧
    decode [0b11111011] = .ok (.ei, []) :=
  ⟨rfl, rfl, rfl, rfl, rfl, rfl, rfl, rfl⟩

/-- Rows of regime `idx`, from the `encoding` column of the opcode table, field by field. -/
theorem test_decode_idx_1 :
    decode [0b11_1_11101, 0b00_01_1001] = .ok (.addIxRr .iy .de, []) ∧
    decode [0b11_0_11101, 0b00100001, 0b10000100, 0b10000010] = .ok (.ldIxNn .ix 0x8284, []) ∧
    decode [0b11_0_11101, 0b00100010, 0b10000101, 0b10000101] = .ok (.ldMemNnIx .ix 0x8585, []) ∧
    decode [0b11_1_11101, 0b00100011] = .ok (.incIx .iy, []) ∧
    decode [0b11_1_11101, 0b00101010, 0b10000111, 0b10001011] = .ok (.ldIxMemNn .iy 0x8B87, []) ∧
    decode [0b11_0_11101, 0b00101011] = .ok (.decIx .ix, []) ∧
    decode [0b11_0_11101, 0b0010_1_100] = .ok (.incIxHalf .ix .lo, []) ∧
    decode [0b11_1_11101, 0b0010_0_101] = .ok (.decIxHalf .iy .hi, []) ∧
    decode [0b11_1_11101, 0b0010_1_110, 0b01100000] = .ok (.ldIxHalfN .iy .lo 0x60, []) ∧
    decode [0b11_0_11101, 0b00110100, 0b11101001] = .ok (.incMemIx .ix 0xE9, []) ∧
    decode [0b11_0_11101, 0b00110101, 0b11110000] = .ok (.decMemIx .ix 0xF0, []) ∧
    decode [0b11_1_11101, 0b00110110, 0b11110111, 0b10000001] = .ok (.ldMemIxN .iy 0xF7 0x81, []) ∧
    decode [0b11_1_11101, 0b01_100_111] = .ok (.ldXX .iy .hi .a, []) ∧
    decode [0b11_0_11101, 0b01_100_110, 0b00000101] = .ok (.ldRMemIx .ix .h 0x05, []) :=
  ⟨rfl, rfl, rfl, rfl, rfl, rfl, rfl, rfl, rfl, rfl, rfl, rfl, rfl, rfl⟩

/-- Rows of regime `idx`, from the `encoding` column of the opcode table, field by field. -/
theorem test_decode_idx_2 :
    decode [0b11_0_11101, 0b01110_111, 0b00001100] = .ok (.ldMemIxR .ix 0x0C .a, []) ∧
    decode [0b11_1_11101, 0b1000010_0] = .ok (.addAIxHalf .iy .hi, []) ∧
    decode [0b11_1_11101, 0b10000110, 0b00011010] = .ok (.addAMemIx .iy 0x1A, []) ∧
    decode [0b11_0_11101, 0b1000110_0] = .ok (.adcAIxHalf .ix .hi, []) ∧
    decode [0b11_0_11101, 0b10001110, 0b00101000] = .ok (.adcAMemIx .ix 0x28, []) ∧
    decode [0b11_1_11101, 0b1001010_0] = .ok (.subIxHalf .iy .hi, []) ∧
    decode [0b11_1_11101, 0b10010110, 0b00110110] = .ok (.subMemIx .iy 0x36, []) ∧
    decode [0b11_0_11101, 0b1001110_0] = .ok (.sbcAIxHalf .ix .hi, []) ∧
    decode [0b11_0_11101, 0b10011110, 0b01000100] = .ok (.sbcAMemIx .ix 0x44, []) ∧
    decode [0b11_1_11101, 0b1010010_0] = .ok (.andIxHalf .iy .hi, []) ∧
    decode [0b11_1_11101, 0b10100110, 0b01010010] = .ok (.andMemIx .iy 0x52, []) ∧
    decode [0b11_0_11101, 0b1010110_0] = .ok (.xorIxHalf .ix .hi, []) ∧
    decode [0b11_0_11101, 0b10101110, 0b01100000] = .ok (.xorMemIx .ix 0x60, []) ∧
    decode [0b11_1_11101, 0b1011010_0] = .ok (.orIxHalf .iy .hi, []) :=
  ⟨rfl, rfl, rfl, rfl, rfl, rfl, rfl, rfl, rfl, rfl, rfl, rfl, rfl, rfl⟩

/-- Rows of regime `idx`, from the `encoding` column of the opcode table, field by field. -/
theorem test_decode_idx_3 :
    decode [0b11_1_11101, 0b10110110, 0b01101110] = .ok (.orMemIx .iy 0x6E, []) ∧
    decode [0b11_0_11101, 0b1011110_0] = .ok (.cpIxHalf .ix .hi, []) ∧
    decode [0b11_0_11101, 0b10111110, 0b01111100] = .ok (.cpMemIx .ix 0x7C, []) ∧
    decode [0b11_1_11101, 0b11100001] = .ok (.popIx .iy, []) ∧
    decode [0b11_1_11101, 0b11100011] = .ok (.exMemSpIx .iy, []) ∧
    decode [0b11_0_11101, 0b11100101] = .ok (.pushIx .ix, []) ∧
    decode [0b11_0_11101, 0b11101001] = .ok (.jpIx .ix, []) ∧
    decode [0b11_1_11101, 0b11111001] = .ok (.ldSpIx .iy, []) :=
  ⟨rfl, rfl, rfl, rfl, rfl, rfl, rfl, rfl⟩

/-- Rows of regime `cb`, from the `encoding` column of the opcode table, field by field. -/
theorem test_decode_cb_1 :
    decode [0b11001011, 0b00000_100] = .ok (.rlcR .h, []) ∧
    decode [0b11001011, 0b00000110] = .ok (.rlcMemHl, []) ∧
    decode [0b11001011, 0b00001_000] = .ok (.rrcR .b, []) ∧
    decode [0b11001011, 0b00001110] = .ok (.rrcMemHl, []) ∧
    decode [0b11001011, 0b00010_011] = .ok (.rlR .e, []) ∧
    decode [0b11001011, 0b00010110] = .ok (.rlMemHl, []) ∧
    decode [0b11001011, 0b00011_111] = .ok (.rrR .a, []) ∧
    decode [0b11001011, 0b00011110] = .ok (.rrMemHl, []) ∧
    decode [0b11001011, 0b00100_010] = .ok (.slaR .d, []) ∧
    decode [0b11001011, 0b00100110] = .ok (.slaMemHl, []) ∧
    decode [0b11001011, 0b00101_101] = .ok (.sraR .l, []) ∧
    decode [0b11001011, 0b00101110] = .ok (.sraMemHl, []) ∧
    decode [0b11001011, 0b00110_001] = .ok (.sllR .c, []) ∧
    decode [0b11001011, 0b00110110] = .ok (.sllMemHl, []) :=
  ⟨rfl, rfl, rfl, rfl, rfl, rfl, rfl, rfl, rfl, rfl, rfl, rfl, rfl, rfl⟩

/-- Rows of regime `cb`, from the `encoding` column of the opcode table, field by field. -/
theorem test_decode_cb_2 :
    decode [0b11001011, 0b00111_100] = .ok (.srlR .h, []) ∧
    decode [0b11001011, 0b00111110] = .ok (.srlMemHl, []) ∧
    decode [0b11001011, 0b01_011_000] = .ok (.bitR 3 .b, []) ∧
    decode [0b11001011, 0b01_110_110] = .ok (.bitMemHl 6, []) ∧
    decode [0b11001011, 0b10_001_011] = .ok (.resR 1 .e, []) ∧
    decode [0b11001011, 0b10_100_110] = .ok (.resMemHl 4, []) ∧
    decode [0b11001011, 0b11_111_111] = .ok (.setR 7 .a, []) ∧
    decode [0b11001011, 0b11_010_110] = .ok (.setMemHl 2, []) :=
  ⟨rfl, rfl, rfl, rfl, rfl, rfl, rfl, rfl⟩

/-- Rows of regime `idxcb`, from the `encoding` column of the opcode table, field by field. -/
theorem test_decode_idxcb_1 :
    decode [0b11_0_11101, 0b11001011, 0b01000000, 0b00000110] = .ok (.rlcMemIx .ix 0x40, []) ∧
    decode [0b11_1_11101, 0b11001011, 0b01000111, 0b00001110] = .ok (.rrcMemIx .iy 0x47, []) ∧
    decode [0b11_1_11101, 0b11001011, 0b01001110, 0b00010110] = .ok (.rlMemIx .iy 0x4E, []) ∧
    decode [0b11_0_11101, 0b11001011, 0b01010101, 0b00011110] = .ok (.rrMemIx .ix 0x55, []) ∧
    decode [0b11_0_11101, 0b11001011, 0b01011100, 0b00100110] = .ok (.slaMemIx .ix 0x5C, []) ∧
    decode [0b11_1_11101, 0b11001011, 0b01100011, 0b00101110] = .ok (.sraMemIx .iy 0x63, []) ∧
    decode [0b11_1_11101, 0b11001011, 0b01101010, 0b00110110] = .ok (.sllMemIx .iy 0x6A, []) ∧
    decode [0b11_0_11101, 0b11001011, 0b01110001, 0b00111110] = .ok (.srlMemIx .ix 0x71, []) ∧
    decode [0b11_0_11101, 0b11001011, 0b01111000, 0b01_101_110] = .ok (.bitMemIx 5 .ix 0x78, []) ∧
    decode [0b11_1_11101, 0b11001011, 0b01111111, 0b10_000_110] = .ok (.resMemIx 0 .iy 0x7F, []) ∧
    decode [0b11_1_11101, 0b11001011, 0b10000110, 0b11_011_110] = .ok (.setMemIx 3 .iy 0x86, []) :=
  ⟨rfl, rfl, rfl, rfl, rfl, rfl, rfl, rfl, rfl, rfl, rfl⟩

/-- Rows of regime `ed`, from the `encoding` column of the opcode table, field by field. -/
theorem test_decode_ed_1 :
    decode [0b11101101, 0b01_00_0010] = .ok (.sbcHlRr .bc, []) ∧
    decode [0b11101101, 0b01_11_1010] = .ok (.adcHlRr .sp, []) ∧
    decode [0b11101101, 0b01_10_0011, 0b11001010, 0b01010100] = .ok (.ldMemNnRr .hl 0x54CA, []) ∧
    decode [0b11101101, 0b01_01_1011, 0b11001011, 0b01010111] = .ok (.ldRrMemNn .de 0x57CB, []) ∧
    decode [0b11101101, 0b01000100] = .ok (.neg, []) ∧
    decode [0b11101101, 0b01010111] = .ok (.ldAI, []) ∧
    decode [0b11101101, 0b01100111] = .ok (.rrd, []) ∧
    decode [0b11101101, 0b01101111] = .ok (.rld, []) ∧
    decode [0b11101101, 0b10100000] = .ok (.ldi, []) ∧
    decode [0b11101101, 0b10100001] = .ok (.cpi, []) ∧
    decode [0b11101101, 0b10101000] = .ok (.ldd, []) ∧
    decode [0b11101101, 0b10101001] = .ok (.cpd, []) ∧
    decode [0b11101101, 0b10110000] = .ok (.ldir, []) ∧
    decode [0b11101101, 0b10110001] = .ok (.cpir, []) :=
  ⟨rfl, rfl, rfl, rfl, rfl, rfl, rfl, rfl, rfl, rfl, rfl, rfl, rfl, rfl⟩

/-- Rows of regime `ed`, from the `encoding` column of the opcode table, field by field. -/
theorem test_decode_ed_2 :
    decode [0b11101101, 0b10111000] = .ok (.lddr, []) ∧
    decode [0b11101101, 0b10111001] = .ok (.cpdr, []) :=
  ⟨rfl, rfl⟩

/-- The three faulting rows and the discarded prefix, which have no `encoding`: R353, R123, R124, R135. -/
theorem test_decode_faulting :
    decode [0b1110_1101, 0b0101_1111] = .ok (.edOther 0x5F, []) ∧
    decode [0b1101_1101, 0b1100_1011, 0x05, 0b0001_0000] = .ok (.idxCbOther .ix 0x05 0x10, []) ∧
    decode [0b1111_1101, 0b1110_1011] = .ok (.prefixDiscarded .iy 0xEB, []) ∧
    decode [0b1101_1101, 0b0111_0110] = .ok (.prefixDiscarded .ix 0x76, []) :=
  ⟨rfl, rfl, rfl, rfl⟩

/-- The five decoder rows (`11001011`, `11101101`, `11i11101`, `11i11101 11001011`): bytes that go on. -/
theorem test_decode_rows :
    decode [0b11001011] = .error .truncated ∧ decode [0b11101101] = .error .truncated ∧
    decode [0b11011101] = .error .truncated ∧ decode [0b11111101] = .error .truncated ∧
    decode [0b11111101, 0b11001011] = .error .truncated :=
  ⟨rfl, rfl, rfl, rfl, rfl⟩

/-- What the five decoder rows encode to, from the same column. -/
theorem test_encode_rows :
    encode .cbEscape = [0b11001011] ∧ encode .edEscape = [0b11101101] ∧ encode .ddPrefix = [0b11011101] ∧
    encode .fdPrefix = [0b11111101] ∧ encode (.cbEscapeIndexed .iy) = [0b11111101, 0b11001011] := by
  decide

/-- R134: the last prefix of a run wins; R107: `76` is HALT, never `LD (HL),(HL)`. -/
theorem test_decode_run :
    decode [0xDD, 0xDD, 0xFD, 0x21, 0x34, 0x12] = .ok (.ldIxNn .iy 0x1234, []) ∧
    decode [0xFD, 0xDD, 0x7E, 0x01] = .ok (.ldRMemIx .ix .a 0x01, []) ∧ decode [0x76] = .ok (.halt, []) :=
  ⟨rfl, rfl, rfl⟩

/-- R110: 86 prefixable opcodes, no two equal. R120: 28 ED opcodes. -/
theorem test_opcode_sets : ddFdPrefixable.length = 86 ∧ ddFdPrefixable.Nodup ∧ edImplemented.length = 28 ∧ edImplemented.Nodup := by
  decide +kernel

/-- The host's two functions on a table word: `LD A,n` with its operand byte, and `LD BC,nn` with operand bytes of zero. -/
theorem test_table_word :
    decodeTableWord 16 0x5A3E = some (.ldRN .a 0x5A) ∧ decodeTableWord 8 0x01 = some (.ldRrNn .bc 0x0000) ∧
    decodeTableWord 16 0x7FCB = some (.bitR 7 .a) := by
  decide +kernel

theorem test_fetch_word :
    (match step (State.reset.withFetchWord 16 0x5A3E) with
      | .next t => some (t.main.a, t.pc)
      | _ => none) = some (0x5A, 0x0102) := by
  decide +kernel

/-! ## One step each: vectors of 95_test_vectors.md, by their numbers -/

/-- V100: LD B,C; reset C=FF. -/
theorem test_V100 :
    ((after [0x41] State.reset).map fun t => t.bc) =
      some 0xFFFF := by decide +kernel

/-- V102: LD B,n. -/
theorem test_V102 :
    ((after [0x06, 0x5A] State.reset).map fun t => t.bc) =
      some 0x5AFF := by decide +kernel

/-- V103: LD A,(HL). -/
theorem test_V103 :
    ((after [0x7E] ((State.reset.setHl 0x2000).putCode 0x2000 [0x99])).map fun t => t.main.a) =
      some 0x99 := by decide +kernel

/-- V104: LD (HL),B. -/
theorem test_V104 :
    ((after [0x70] ((State.reset.setHl 0x2000).setBc 0x1234)).map fun t => t.byteAt 0x2000) =
      some 0x12 := by decide +kernel

/-- V105: LD (HL),n at the last byte of memory: byte access, no fault. -/
theorem test_V105 :
    ((after [0x36, 0x77] (State.reset.setHl 0xFFFF)).map fun t => t.byteAt 0xFFFF) =
      some 0x77 := by decide +kernel

/-- V106: d = -1. -/
theorem test_V106 :
    ((after [0xDD, 0x7E, 0xFF] ((State.reset.setIx .ix 0x2000).putCode 0x1FFF [0x5A])).map fun t => t.main.a) =
      some 0x5A := by decide +kernel

/-- V107: address wraps: (FFF0+7F)&FFFF=006F. -/
theorem test_V107 :
    ((after [0xFD, 0x70, 0x7F] ((State.reset.setIx .iy 0xFFF0).setBc 0xABCD)).map fun t => t.byteAt 0x006F) =
      some 0xAB := by decide +kernel

/-- V108: LD (IX+d),n: d then n. -/
theorem test_V108 :
    ((after [0xDD, 0x36, 0xFE, 0x11] (State.reset.setIx .ix 0x3000)).map fun t => t.byteAt 0x2FFE) =
      some 0x11 := by decide +kernel

/-- V109: destination is plain H (rule R112 of 30_encoding.md). -/
theorem test_V109 :
    ((after [0xDD, 0x66, 0x01] (((State.reset.setIx .ix 0x2000).setHl 0x1111).putCode 0x2001 [0xAB])).map fun t => t.hl) =
      some 0xAB11 := by decide +kernel

/-- V110: source is plain H. -/
theorem test_V110 :
    ((after [0xDD, 0x74, 0x00] ((State.reset.setIx .ix 0x2000).setHl 0x12FF)).map fun t => t.byteAt 0x2000) =
      some 0x12 := by decide +kernel

/-- V111: LD IXH,B. -/
theorem test_V111 :
    ((after [0xDD, 0x60] ((State.reset.setIx .ix 0x1234).setBc 0x5600)).map fun t => t.ix) =
      some 0x5634 := by decide +kernel

/-- V112: LD IXL,IXH. -/
theorem test_V112 :
    ((after [0xDD, 0x6C] (State.reset.setIx .ix 0x12FF)).map fun t => t.ix) =
      some 0x1212 := by decide +kernel

/-- V114: LD IXH,n. -/
theorem test_V114 :
    ((after [0xDD, 0x26, 0x9A] (State.reset.setIx .ix 0x0011)).map fun t => t.ix) =
      some 0x9A11 := by decide +kernel

/-- V115: LD A,(BC). -/
theorem test_V115 :
    ((after [0x0A] ((State.reset.setBc 0x0102).putCode 0x0102 [0x07])).map fun t => t.main.a) =
      some 0x07 := by decide +kernel

/-- V116: LD A,(DE) with reset DE. -/
theorem test_V116 :
    ((after [0x1A] (State.reset.putCode 0x03FF [0x21])).map fun t => t.main.a) =
      some 0x21 := by decide +kernel

/-- V117: LD (BC),A with reset values: m[00FF]=FF. -/
theorem test_V117 :
    ((after [0x02] State.reset).map fun t => t.byteAt 0x00FF) =
      some 0xFF := by decide +kernel

/-- V118: LD (DE),A. -/
theorem test_V118 :
    ((after [0x12] ((State.reset.setDe 0x2000).setA 0x41)).map fun t => t.byteAt 0x2000) =
      some 0x41 := by decide +kernel

/-- V119: LD A,(nn). -/
theorem test_V119 :
    ((after [0x3A, 0x34, 0x12] (State.reset.putCode 0x1234 [0x77])).map fun t => t.main.a) =
      some 0x77 := by decide +kernel

/-- V120: LD (nn),A. -/
theorem test_V120 :
    ((after [0x32, 0x00, 0x40] (State.reset.setA 0x5C)).map fun t => t.byteAt 0x4000) =
      some 0x5C := by decide +kernel

/-- V121: LD A,I: I is always 0. -/
theorem test_V121 :
    ((after [0xED, 0x57] (State.reset.setA 0x55)).map fun t => (t.main.a, t.main.f)) =
      some (0x00, 0x41) := by decide +kernel

/-- V122: DD before non-prefixable LD B,C: step 1 discards the prefix only. -/
theorem test_V122 :
    ((after [0xDD, 0x41] State.reset).map fun t => t.pc) =
      some 0x0101 := by decide +kernel

/-- V130: LD BC,nn little-endian. -/
theorem test_V130 :
    ((after [0x01, 0x34, 0x12] State.reset).map fun t => t.bc) =
      some 0x1234 := by decide +kernel

/-- V132: LD IX,nn (scenario 1). -/
theorem test_V132 :
    ((after [0xDD, 0x21, 0x0B, 0x0A] State.reset).map fun t => t.ix) =
      some 0x0A0B := by decide +kernel

/-- V133: LD HL,(nn). -/
theorem test_V133 :
    ((after [0x2A, 0x00, 0x20] (State.reset.putCode 0x2000 [0xCD, 0xAB])).map fun t => t.hl) =
      some 0xABCD := by decide +kernel

/-- V134: LD (nn),HL. -/
theorem test_V134 :
    ((after [0x22, 0x00, 0x20] (State.reset.setHl 0xBEEF)).map fun t => (t.byteAt 0x2000, t.byteAt 0x2001)) =
      some (0xEF, 0xBE) := by decide +kernel

/-- V135: LD IY,(nn). -/
theorem test_V135 :
    ((after [0xFD, 0x2A, 0x00, 0x20] (State.reset.putCode 0x2000 [0x78, 0x56])).map fun t => t.iy) =
      some 0x5678 := by decide +kernel

/-- V136: word write at FFFE: last legal word address. -/
theorem test_V136 :
    ((after [0xDD, 0x22, 0xFE, 0xFF] (State.reset.setIx .ix 0x1234)).map fun t => (t.byteAt 0xFFFE, t.byteAt 0xFFFF)) =
      some (0x34, 0x12) := by decide +kernel

/-- V137: word write at FFFF. -/
theorem test_V137 : stopOf [0x22, 0xFF, 0xFF] (State.reset.setHl 0x1234) = some (.memoryOutOfRange 0xFFFF) := by decide +kernel

/-- V138: LD BC,(nn). -/
theorem test_V138 :
    ((after [0xED, 0x4B, 0x00, 0x20] (State.reset.putCode 0x2000 [0x02, 0x01])).map fun t => t.bc) =
      some 0x0102 := by decide +kernel

/-- V143: LD (nn),SP with reset SP. -/
theorem test_V143 :
    ((after [0xED, 0x73, 0x00, 0x20] State.reset).map fun t => (t.byteAt 0x2001, t.byteAt 0x2000)) =
      some (0xF8, 0x00) := by decide +kernel

/-- V144: LD SP,HL. -/
theorem test_V144 :
    ((after [0xF9] (State.reset.setHl 0x8000)).map fun t => t.sp) =
      some 0x8000 := by decide +kernel

/-- V145: LD SP,IY. -/
theorem test_V145 :
    ((after [0xFD, 0xF9] (State.reset.setIx .iy 0x7000)).map fun t => t.sp) =
      some 0x7000 := by decide +kernel

/-- V146: EX AF,AF' from reset. -/
theorem test_V146 :
    ((after [0x08] State.reset).map fun t => (t.main.a, t.main.f, t.alt.a, t.alt.f)) =
      some (0x00, 0x00, 0xFF, 0xFF) := by decide +kernel

/-- V148: EXX. -/
theorem test_V148 :
    ((after [0xD9] (((State.reset.setBc 0x0405).setDe 0x0607).setHl 0x0809)).map fun t => (t.bc, t.de, t.hl, joinBytes t.alt.c t.alt.b)) =
      some (0x0000, 0x0000, 0x0000, 0x0405) := by decide +kernel

/-- V149: EX DE,HL. -/
theorem test_V149 :
    ((after [0xEB] (State.reset.setHl 0x1234)).map fun t => (t.de, t.hl)) =
      some (0x1234, 0x03FF) := by decide +kernel

/-- V150: EX (SP),HL. -/
theorem test_V150 :
    ((after [0xE3] (((State.reset.setHl 0x1234).setPair .sp 0x8000).putCode 0x8000 [0xCD, 0xAB])).map fun t => (t.hl, t.byteAt 0x8000, t.byteAt 0x8001)) =
      some (0xABCD, 0x34, 0x12) := by decide +kernel

/-- V151: EX (SP),IX: HL untouched. -/
theorem test_V151 :
    ((after [0xDD, 0xE3] ((((State.reset.setIx .ix 0x1234).setHl 0x5555).setPair .sp 0x8000).putCode 0x8000 [0xCD, 0xAB])).map fun t => (t.ix, t.byteAt 0x8000, t.byteAt 0x8001)) =
      some (0xABCD, 0x34, 0x12) := by decide +kernel

/-- V153: PUSH AF from reset. -/
theorem test_V153 :
    ((after [0xF5] State.reset).map fun t => (t.sp, t.byteAt 0xF7FE, t.byteAt 0xF7FF)) =
      some (0xF7FE, 0xFF, 0xFF) := by decide +kernel

/-- V154: POP AF: F takes any byte. -/
theorem test_V154 :
    ((after [0xF1] ((State.reset.setPair .sp 0x8000).putCode 0x8000 [0xD7, 0x12])).map fun t => (t.main.a, t.main.f, t.sp)) =
      some (0x12, 0xD7, 0x8002) := by decide +kernel

/-- V155: PUSH IX. -/
theorem test_V155 :
    ((after [0xDD, 0xE5] (State.reset.setIx .ix 0xCAFE)).map fun t => (t.sp, t.byteAt 0xF7FE, t.byteAt 0xF7FF)) =
      some (0xF7FE, 0xFE, 0xCA) := by decide +kernel

/-- V156: POP IY. -/
theorem test_V156 :
    ((after [0xFD, 0xE1] ((State.reset.setPair .sp 0x8000).putCode 0x8000 [0x0D, 0x0C])).map fun t => (t.iy, t.sp)) =
      some (0x0C0D, 0x8002) := by decide +kernel

/-- V157: PUSH with SP=0001: word write at FFFF. -/
theorem test_V157 : stopOf [0xC5] (State.reset.setPair .sp 0x0001) = some (.memoryOutOfRange 0xFFFF) := by decide +kernel

/-- V158: POP with SP=FFFF. -/
theorem test_V158 : stopOf [0xC1] (State.reset.setPair .sp 0xFFFF) = some (.memoryOutOfRange 0xFFFF) := by decide +kernel

/-- V159: PUSH with SP=0000 wraps to FFFE: legal. -/
theorem test_V159 :
    ((after [0xC5] ((State.reset.setPair .sp 0x0000).setBc 0x1234)).map fun t => (t.sp, t.byteAt 0xFFFE, t.byteAt 0xFFFF)) =
      some (0xFFFE, 0x34, 0x12) := by decide +kernel

/-- V160: POP at FFFE: SP wraps to 0000. -/
theorem test_V160 :
    ((after [0xC1] ((State.reset.setPair .sp 0xFFFE).putCode 0xFFFE [0x34, 0x12])).map fun t => (t.bc, t.sp)) =
      some (0x1234, 0x0000) := by decide +kernel

/-- V200: ADD: signed overflow. -/
theorem test_V200 :
    ((after [0x80] (((State.reset.setA 0x7F).setBc 0x0100).setF 0x00)).map fun t => (t.main.a, t.main.f)) =
      some (0x80, 0x94) := by decide +kernel

/-- V203: ADC A,A. -/
theorem test_V203 :
    ((after [0x8F] ((State.reset.setA 0x80).setF 0x01)).map fun t => (t.main.a, t.main.f)) =
      some (0x01, 0x05) := by decide +kernel

/-- V204: SUB: borrow. -/
theorem test_V204 :
    ((after [0x90] (((State.reset.setA 0x00).setBc 0x0100).setF 0x00)).map fun t => (t.main.a, t.main.f)) =
      some (0xFF, 0xBB) := by decide +kernel

/-- V207: SBC A,n: 00-FF-1. -/
theorem test_V207 :
    ((after [0xDE, 0xFF] ((State.reset.setA 0x00).setF 0x01)).map fun t => t.main.f) =
      some 0x53 := by decide +kernel

/-- V208: AND: zero result, H=1. -/
theorem test_V208 :
    ((after [0xA0] ((State.reset.setA 0xF0).setBc 0x0F00)).map fun t => (t.main.a, t.main.f)) =
      some (0x00, 0x54) := by decide +kernel

/-- V211: XOR E (scenario 4 step 3). -/
theorem test_V211 :
    ((after [0xAB] ((State.reset.setA 0x0F).setDe 0x0312)).map fun t => (t.main.a, t.main.f)) =
      some (0x1D, 0x0C) := by decide +kernel

/-- V212: OR (HL). -/
theorem test_V212 :
    ((after [0xB6] (((State.reset.setA 0x01).setHl 0x2000).putCode 0x2000 [0x80])).map fun t => (t.main.a, t.main.f)) =
      some (0x81, 0x84) := by decide +kernel

/-- V213: CP: Y,X from operand 28, A kept. -/
theorem test_V213 :
    ((after [0xB8] (((State.reset.setA 0x10).setBc 0x2800).setF 0x00)).map fun t => t.main.f) =
      some 0xBB := by decide +kernel

/-- V214: CP n equal. -/
theorem test_V214 :
    ((after [0xFE, 0x43] ((State.reset.setA 0x43).setF 0x00)).map fun t => t.main.f) =
      some 0x42 := by decide +kernel

/-- V216: INC A: overflow, C kept. -/
theorem test_V216 :
    ((after [0x3C] ((State.reset.setA 0x7F).setF 0x01)).map fun t => (t.main.a, t.main.f)) =
      some (0x80, 0x95) := by decide +kernel

/-- V218: DEC A: overflow. -/
theorem test_V218 :
    ((after [0x3D] ((State.reset.setA 0x80).setF 0x00)).map fun t => (t.main.a, t.main.f)) =
      some (0x7F, 0x3E) := by decide +kernel

/-- V220: INC (HL). -/
theorem test_V220 :
    ((after [0x34] (((State.reset.setHl 0x2000).setF 0x00).putCode 0x2000 [0x0F])).map fun t => (t.main.f, t.byteAt 0x2000)) =
      some (0x10, 0x10) := by decide +kernel

/-- V221: DEC (IX+2). -/
theorem test_V221 :
    ((after [0xDD, 0x35, 0x02] (((State.reset.setIx .ix 0x2000).setF 0x01).putCode 0x2002 [0x00])).map fun t => (t.main.f, t.byteAt 0x2002)) =
      some (0xBB, 0xFF) := by decide +kernel

/-- V222: INC IXH. -/
theorem test_V222 :
    ((after [0xDD, 0x24] ((State.reset.setIx .ix 0xFF00).setF 0x00)).map fun t => (t.main.f, t.ix)) =
      some (0x50, 0x0000) := by decide +kernel

/-- V223: ADD A,IXH. -/
theorem test_V223 :
    ((after [0xDD, 0x84] (((State.reset.setA 0x01).setIx .ix 0x7F00).setF 0x00)).map fun t => (t.main.a, t.main.f)) =
      some (0x80, 0x94) := by decide +kernel

/-- V224: ADC A,(IY-2). -/
theorem test_V224 :
    ((after [0xFD, 0x8E, 0xFE] ((((State.reset.setA 0x10).setIx .iy 0x2002).setF 0x01).putCode 0x2000 [0x0F])).map fun t => (t.main.a, t.main.f)) =
      some (0x20, 0x30) := by decide +kernel

/-- V225: SUB (IX+0). -/
theorem test_V225 :
    ((after [0xDD, 0x96, 0x00] (((State.reset.setA 0x10).setIx .ix 0x2000).putCode 0x2000 [0x01])).map fun t => (t.main.a, t.main.f)) =
      some (0x0F, 0x1A) := by decide +kernel

/-- V227: DAA with H=1 (scenario 3 step 8). -/
theorem test_V227 :
    ((after [0x27] ((State.reset.setA 0x37).setF 0xB0)).map fun t => (t.main.a, t.main.f)) =
      some (0x3D, 0x28) := by decide +kernel

/-- V228: DAA with N=1 (scenario 3 step 13). -/
theorem test_V228 :
    ((after [0x27] ((State.reset.setA 0x99).setF 0x42)).map fun t => t.main.f) =
      some 0x8E := by decide +kernel

/-- V231: DAA after subtraction with H and C: 00 -> 9A. -/
theorem test_V231 :
    ((after [0x27] ((State.reset.setA 0x00).setF 0x13)).map fun t => (t.main.a, t.main.f)) =
      some (0x9A, 0x9F) := by decide +kernel

/-- V232: CPL. -/
theorem test_V232 :
    ((after [0x2F] ((State.reset.setA 0x5A).setF 0x00)).map fun t => (t.main.a, t.main.f)) =
      some (0xA5, 0x32) := by decide +kernel

/-- V234: NEG 80: overflow. -/
theorem test_V234 :
    ((after [0xED, 0x44] (State.reset.setA 0x80)).map fun t => t.main.f) =
      some 0x87 := by decide +kernel

/-- V236: SCF: Y,X from A. -/
theorem test_V236 :
    ((after [0x37] ((State.reset.setA 0x28).setF 0x00)).map fun t => t.main.f) =
      some 0x29 := by decide +kernel

/-- V237: CCF from F=FF: H = old C. -/
theorem test_V237 :
    ((after [0x3F] (State.reset.setA 0x37)).map fun t => t.main.f) =
      some 0xF4 := by decide +kernel

/-- V260: ADD HL,BC: carry from bit 11. -/
theorem test_V260 :
    ((after [0x09] (((State.reset.setHl 0x0FFF).setBc 0x0001).setF 0x00)).map fun t => (t.main.f, t.hl)) =
      some (0x10, 0x1000) := by decide +kernel

/-- V261: ADD HL,DE: carry out; S,Z,P/V kept. -/
theorem test_V261 :
    ((after [0x19] (((State.reset.setHl 0xFFFF).setDe 0x0001).setF 0xC4)).map fun t => (t.main.f, t.hl)) =
      some (0xD5, 0x0000) := by decide +kernel

/-- V265: ADD IX,IX: pair 2 is IX on both sides. -/
theorem test_V265 :
    ((after [0xDD, 0x29] (((State.reset.setIx .ix 0x4000).setHl 0x1111).setF 0x00)).map fun t => t.ix) =
      some 0x8000 := by decide +kernel

/-- V268: ADC HL,DE: zero with carry. -/
theorem test_V268 :
    ((after [0xED, 0x5A] (((State.reset.setHl 0xFFFF).setDe 0x0000).setF 0x01)).map fun t => (t.main.f, t.hl)) =
      some (0x51, 0x0000) := by decide +kernel

/-- V272: SBC HL,DE: overflow. -/
theorem test_V272 :
    ((after [0xED, 0x52] (((State.reset.setHl 0x8000).setDe 0x0001).setF 0x00)).map fun t => (t.main.f, t.hl)) =
      some (0x3E, 0x7FFF) := by decide +kernel

/-- V275: INC BC wraps; no flags. -/
theorem test_V275 :
    ((after [0x03] (State.reset.setBc 0xFFFF)).map fun t => t.bc) =
      some 0x0000 := by decide +kernel

/-- V276: DEC BC wraps; no flags. -/
theorem test_V276 :
    ((after [0x0B] (State.reset.setBc 0x0000)).map fun t => t.bc) =
      some 0xFFFF := by decide +kernel

/-- V277: INC IX. -/
theorem test_V277 :
    ((after [0xDD, 0x23] (State.reset.setIx .ix 0x00FF)).map fun t => t.ix) =
      some 0x0100 := by decide +kernel

/-- V278: DEC IY. -/
theorem test_V278 :
    ((after [0xFD, 0x2B] (State.reset.setIx .iy 0x0000)).map fun t => t.iy) =
      some 0xFFFF := by decide +kernel

/-- V280: DEC SP wraps. -/
theorem test_V280 :
    ((after [0x3B] (State.reset.setPair .sp 0x0000)).map fun t => t.sp) =
      some 0xFFFF := by decide +kernel

/-- V301: RLCA from F=FF: S,Z,P/V kept. -/
theorem test_V301 :
    ((after [0x07] (State.reset.setA 0x81)).map fun t => (t.main.a, t.main.f)) =
      some (0x03, 0xC5) := by decide +kernel

/-- V302: RRCA. -/
theorem test_V302 :
    ((after [0x0F] ((State.reset.setA 0x01).setF 0x00)).map fun t => (t.main.a, t.main.f)) =
      some (0x80, 0x01) := by decide +kernel

/-- V304: RLA: carry in. -/
theorem test_V304 :
    ((after [0x17] ((State.reset.setA 0x00).setF 0x01)).map fun t => (t.main.a, t.main.f)) =
      some (0x01, 0x00) := by decide +kernel

/-- V306: RRA with F=FF: only bit 0 of F enters bit 7 (conflict C5). -/
theorem test_V306 :
    ((after [0x1F] ((State.reset.setA 0x00).setF 0xFF)).map fun t => (t.main.a, t.main.f)) =
      some (0x80, 0xC4) := by decide +kernel

/-- V307: RLC B. -/
theorem test_V307 :
    ((after [0xCB, 0x00] (State.reset.setBc 0x8100)).map fun t => (t.main.f, t.bc)) =
      some (0x05, 0x0300) := by decide +kernel

/-- V308: RLC (HL). -/
theorem test_V308 :
    ((after [0xCB, 0x06] ((State.reset.setHl 0x4000).putCode 0x4000 [0x80])).map fun t => (t.main.f, t.byteAt 0x4000)) =
      some (0x01, 0x01) := by decide +kernel

/-- V309: RRC A. -/
theorem test_V309 :
    ((after [0xCB, 0x0F] (State.reset.setA 0x01)).map fun t => (t.main.a, t.main.f)) =
      some (0x80, 0x81) := by decide +kernel

/-- V310: RL C. -/
theorem test_V310 :
    ((after [0xCB, 0x11] ((State.reset.setBc 0x0080).setF 0x01)).map fun t => t.bc) =
      some 0x0001 := by decide +kernel

/-- V311: RR D. -/
theorem test_V311 :
    ((after [0xCB, 0x1A] ((State.reset.setDe 0x0100).setF 0x01)).map fun t => (t.main.f, t.de)) =
      some (0x81, 0x8000) := by decide +kernel

/-- V312: SLA E. -/
theorem test_V312 :
    ((after [0xCB, 0x23] (State.reset.setDe 0x00C0)).map fun t => (t.main.f, t.de)) =
      some (0x81, 0x0080) := by decide +kernel

/-- V313: SRA H: sign kept. -/
theorem test_V313 :
    ((after [0xCB, 0x2C] (State.reset.setHl 0x8100)).map fun t => (t.main.f, t.hl)) =
      some (0x85, 0xC000) := by decide +kernel

/-- V314: SLL L: shifts in 1. -/
theorem test_V314 :
    ((after [0xCB, 0x35] (State.reset.setHl 0x0080)).map fun t => (t.main.f, t.hl)) =
      some (0x01, 0x0001) := by decide +kernel

/-- V315: SRL A. -/
theorem test_V315 :
    ((after [0xCB, 0x3F] (State.reset.setA 0x01)).map fun t => (t.main.a, t.main.f)) =
      some (0x00, 0x45) := by decide +kernel

/-- V316: RL (IX+5). -/
theorem test_V316 :
    ((after [0xDD, 0xCB, 0x05, 0x16] (((State.reset.setIx .ix 0x4000).setF 0x01).putCode 0x4005 [0x80])).map fun t => t.byteAt 0x4005) =
      some 0x01 := by decide +kernel

/-- V317: SRL (IY-1). -/
theorem test_V317 :
    ((after [0xFD, 0xCB, 0xFF, 0x3E] ((State.reset.setIx .iy 0x4000).putCode 0x3FFF [0x03])).map fun t => (t.main.f, t.byteAt 0x3FFF)) =
      some (0x01, 0x01) := by decide +kernel

/-- V318: indexed CB with register field: fault. -/
theorem test_V318 : stopOf [0xDD, 0xCB, 0x05, 0x10] (State.reset.setIx .ix 0x4000) = some (.unimplementedOpcode [0xDD, 0xCB, 0x05, 0x10]) := by decide +kernel

/-- V319: BIT 7,A set. -/
theorem test_V319 :
    ((after [0xCB, 0x7F] ((State.reset.setA 0x80).setF 0x01)).map fun t => t.main.f) =
      some 0x91 := by decide +kernel

/-- V320: BIT 7,A clear: Z and P/V. -/
theorem test_V320 :
    ((after [0xCB, 0x7F] ((State.reset.setA 0x7F).setF 0x00)).map fun t => t.main.f) =
      some 0x54 := by decide +kernel

/-- V323: BIT 0,(HL) clear. -/
theorem test_V323 :
    ((after [0xCB, 0x46] (((State.reset.setHl 0x2000).setF 0x00).putCode 0x2000 [0xFE])).map fun t => t.main.f) =
      some 0x54 := by decide +kernel

/-- V324: BIT 7,(IX+2). -/
theorem test_V324 :
    ((after [0xDD, 0xCB, 0x02, 0x7E] (((State.reset.setIx .ix 0x2000).setF 0x00).putCode 0x2002 [0x80])).map fun t => t.main.f) =
      some 0x90 := by decide +kernel

/-- V325: RES 0,A. -/
theorem test_V325 :
    ((after [0xCB, 0x87] (State.reset.setA 0xFF)).map fun t => t.main.a) =
      some 0xFE := by decide +kernel

/-- V326: RES 7,(HL). -/
theorem test_V326 :
    ((after [0xCB, 0xBE] ((State.reset.setHl 0x2000).putCode 0x2000 [0xFF])).map fun t => t.byteAt 0x2000) =
      some 0x7F := by decide +kernel

/-- V327: SET 0,B. -/
theorem test_V327 :
    ((after [0xCB, 0xC0] (State.reset.setBc 0x0000)).map fun t => t.bc) =
      some 0x0100 := by decide +kernel

/-- V328: SET 0,(IX-16). -/
theorem test_V328 :
    ((after [0xDD, 0xCB, 0xF0, 0xC6] (State.reset.setIx .ix 0x4010)).map fun t => t.byteAt 0x4000) =
      some 0x01 := by decide +kernel

/-- V329: RES 3,(IY+0). -/
theorem test_V329 :
    ((after [0xFD, 0xCB, 0x00, 0x9E] ((State.reset.setIx .iy 0x2000).putCode 0x2000 [0xFF])).map fun t => t.byteAt 0x2000) =
      some 0xF7 := by decide +kernel

/-- V330: RLD. -/
theorem test_V330 :
    ((after [0xED, 0x6F] ((((State.reset.setA 0x7A).setHl 0x2000).setF 0x01).putCode 0x2000 [0x31])).map fun t => (t.main.a, t.main.f, t.byteAt 0x2000)) =
      some (0x73, 0x21, 0x1A) := by decide +kernel

/-- V331: RRD. -/
theorem test_V331 :
    ((after [0xED, 0x67] ((((State.reset.setA 0x84).setHl 0x2000).setF 0x00).putCode 0x2000 [0x20])).map fun t => (t.main.a, t.main.f, t.byteAt 0x2000)) =
      some (0x80, 0x80, 0x42) := by decide +kernel

/-- V332: indexed address wraps. -/
theorem test_V332 :
    ((after [0xDD, 0xCB, 0x7F, 0x06] ((State.reset.setIx .ix 0xFFF0).putCode 0x006F [0x01])).map fun t => (t.main.f, t.byteAt 0x006F)) =
      some (0x00, 0x02) := by decide +kernel

/-- V340: JP nn. -/
theorem test_V340 :
    ((after [0xC3, 0x00, 0x20] State.reset).map fun t => t.pc) =
      some 0x2000 := by decide +kernel

/-- V341: JP NZ not taken: operand skipped. -/
theorem test_V341 :
    ((after [0xC2, 0x00, 0x20] (State.reset.setF 0x40)).map fun t => t.pc) =
      some 0x0103 := by decide +kernel

/-- V343: JP M taken. -/
theorem test_V343 :
    ((after [0xFA, 0x00, 0x20] (State.reset.setF 0x80)).map fun t => t.pc) =
      some 0x2000 := by decide +kernel

/-- V345: JP (HL): PC=HL, no memory read. -/
theorem test_V345 :
    ((after [0xE9] (State.reset.setHl 0x4321)).map fun t => t.pc) =
      some 0x4321 := by decide +kernel

/-- V346: JP (IX). -/
theorem test_V346 :
    ((after [0xDD, 0xE9] (State.reset.setIx .ix 0x8000)).map fun t => t.pc) =
      some 0x8000 := by decide +kernel

/-- V349: JR -128. -/
theorem test_V349 :
    ((after [0x18, 0x80] State.reset).map fun t => t.pc) =
      some 0x0082 := by decide +kernel

/-- V351: JR C taken. -/
theorem test_V351 :
    ((after [0x38, 0x10] (State.reset.setF 0x01)).map fun t => t.pc) =
      some 0x0112 := by decide +kernel

/-- V352: DJNZ: B 1->0, falls through. -/
theorem test_V352 :
    ((after [0x10, 0xFE] (State.reset.setBc 0x0100)).map fun t => (t.bc, t.pc)) =
      some (0x0000, 0x0102) := by decide +kernel

/-- V353: DJNZ: B 0->FF, taken to 0100. -/
theorem test_V353 :
    ((after [0x10, 0xFE] (State.reset.setBc 0x0000)).map fun t => (t.bc, t.pc)) =
      some (0xFF00, 0x0100) := by decide +kernel

/-- V354: CALL nn: pushes 0103. -/
theorem test_V354 :
    ((after [0xCD, 0x00, 0x20] State.reset).map fun t => (t.sp, t.byteAt 0xF7FE, t.byteAt 0xF7FF, t.pc)) =
      some (0xF7FE, 0x03, 0x01, 0x2000) := by decide +kernel

/-- V355: CALL NZ not taken: operand consumed, nothing pushed. -/
theorem test_V355 :
    ((after [0xC4, 0x00, 0x20] (State.reset.setF 0x40)).map fun t => t.pc) =
      some 0x0103 := by decide +kernel

/-- V356: CALL C taken. -/
theorem test_V356 :
    ((after [0xDC, 0x00, 0x20] (State.reset.setF 0x01)).map fun t => (t.sp, t.byteAt 0xF7FE, t.byteAt 0xF7FF, t.pc)) =
      some (0xF7FE, 0x03, 0x01, 0x2000) := by decide +kernel

/-- V357: RET. -/
theorem test_V357 :
    ((after [0xC9] ((State.reset.setPair .sp 0x8000).putCode 0x8000 [0x34, 0x12])).map fun t => (t.sp, t.pc)) =
      some (0x8002, 0x1234) := by decide +kernel

/-- V358: RET from reset: pops 0000, stops in the same step. -/
theorem test_V358 :
    ((after [0xC9] State.reset).map fun t => (t.sp, t.running, t.pc)) =
      some (0xF802, false, 0x0000) := by decide +kernel

/-- V359: RET NZ not taken. -/
theorem test_V359 :
    ((after [0xC0] (((State.reset.setF 0x40).setPair .sp 0x8000).putCode 0x8000 [0x34, 0x12])).map fun t => t.pc) =
      some 0x0101 := by decide +kernel

/-- V360: RET Z taken, pops 0000: stops. -/
theorem test_V360 :
    ((after [0xC8] (State.reset.setF 0x40)).map fun t => (t.sp, t.running, t.pc)) =
      some (0xF802, false, 0x0000) := by decide +kernel

/-- V361: RST 0: stops; nothing pushed. -/
theorem test_V361 :
    ((after [0xC7] State.reset).map fun t => t.running) =
      some false := by decide +kernel

/-- V362: RST 08H. -/
theorem test_V362 : stopOf [0xCF] State.reset = some (.unimplementedOpcode [0xCF]) := by decide +kernel

/-- V364: JP 0000: still running after step 1. -/
theorem test_V364 :
    ((after [0xC3, 0x00, 0x00] State.reset).map fun t => t.pc) =
      some 0x0000 := by decide +kernel

/-- V366: CALL with SP=0001: push faults. -/
theorem test_V366 : stopOf [0xCD, 0x00, 0x20] (State.reset.setPair .sp 0x0001) = some (.memoryOutOfRange 0xFFFF) := by decide +kernel

/-- V367: 16-bit immediate straddles FFFF (program at FFFE). -/
theorem test_V367 : stopOf [0xC3, 0x00, 0x20] (State.reset.jump 0xFFFE) = some (.memoryOutOfRange 0xFFFF) := by decide +kernel

/-- V370: LDI. -/
theorem test_V370 :
    ((after [0xED, 0xA0] (((((State.reset.setA 0x00).setBc 0x0002).setDe 0x3000).setHl 0x2000).putCode 0x2000 [0x5A])).map fun t => (t.main.f, t.bc, t.de, t.hl)) =
      some (0xED, 0x0001, 0x3001, 0x2001) := by decide +kernel

/-- V371: LDI, BC reaches 0: P/V=0. -/
theorem test_V371 :
    ((after [0xED, 0xA0] ((((((State.reset.setA 0x10).setF 0x00).setBc 0x0001).setDe 0x3000).setHl 0x2000).putCode 0x2000 [0x1A])).map fun t => (t.main.f, t.bc, t.de, t.hl)) =
      some (0x28, 0x0000, 0x3001, 0x2001) := by decide +kernel

/-- V372: LDD. -/
theorem test_V372 :
    ((after [0xED, 0xA8] (((((State.reset.setF 0xC1).setBc 0x0003).setDe 0x3000).setHl 0x2000).putCode 0x2000 [0x02])).map fun t => (t.main.f, t.bc, t.de, t.hl)) =
      some (0xC5, 0x0002, 0x2FFF, 0x1FFF) := by decide +kernel

/-- V373: LDIR 3 bytes. -/
theorem test_V373 :
    ((after [0xED, 0xB0] ((((State.reset.setBc 0x0003).setDe 0x3000).setHl 0x2000).putCode 0x2000 [0x01, 0x02, 0x03])).map fun t => (t.main.f, t.bc, t.de, t.hl)) =
      some (0xE1, 0x0000, 0x3003, 0x2003) := by decide +kernel

/-- V374: LDIR overlapping forward: fill. -/
theorem test_V374 :
    ((after [0xED, 0xB0] ((((((State.reset.setF 0x00).setA 0x00).setBc 0x0004).setDe 0x2001).setHl 0x2000).putCode 0x2000 [0xAA])).map fun t => (t.main.f, t.bc, t.de, t.hl)) =
      some (0x28, 0x0000, 0x2005, 0x2004) := by decide +kernel

/-- V375: LDDR overlapping upward move. -/
theorem test_V375 :
    ((after [0xED, 0xB8] ((((((State.reset.setF 0x00).setA 0x00).setBc 0x0003).setDe 0x2003).setHl 0x2002).putCode 0x2000 [0x11, 0x22, 0x33])).map fun t => (t.bc, t.de, t.hl, t.byteAt 0x2001)) =
      some (0x0000, 0x2000, 0x1FFF, 0x11) := by decide +kernel

/-- V376: CPI match. -/
theorem test_V376 :
    ((after [0xED, 0xA1] ((((State.reset.setA 0x43).setBc 0x0003).setHl 0x2000).putCode 0x2000 [0x43])).map fun t => (t.main.f, t.bc, t.hl)) =
      some (0x47, 0x0002, 0x2001) := by decide +kernel

/-- V377: CPI no match. -/
theorem test_V377 :
    ((after [0xED, 0xA1] (((((State.reset.setA 0x3B).setBc 0x0005).setHl 0x2000).setF 0x00).putCode 0x2000 [0x10])).map fun t => (t.main.f, t.bc, t.hl)) =
      some (0x2E, 0x0004, 0x2001) := by decide +kernel

/-- V378: CPD at 0000: HL wraps. -/
theorem test_V378 :
    ((after [0xED, 0xA9] (((((State.reset.setA 0x80).setBc 0x0002).setHl 0x0000).setF 0x00).putCode 0x0000 [0x01])).map fun t => (t.main.f, t.bc, t.hl)) =
      some (0x3E, 0x0001, 0xFFFF) := by decide +kernel

/-- V379: CPIR hit with BC left. -/
theorem test_V379 :
    ((after [0xED, 0xB1] ((((State.reset.setA 0x33).setBc 0x0005).setHl 0x2000).putCode 0x2000 [0x11, 0x22, 0x33, 0x44])).map fun t => (t.main.f, t.bc, t.hl)) =
      some (0x47, 0x0002, 0x2003) := by decide +kernel

/-- V380: CPIR hit on the last count: Z=1, P/V=0. -/
theorem test_V380 :
    ((after [0xED, 0xB1] ((((State.reset.setA 0x33).setBc 0x0003).setHl 0x2000).putCode 0x2000 [0x11, 0x22, 0x33, 0x44])).map fun t => (t.main.f, t.bc, t.hl)) =
      some (0x43, 0x0000, 0x2003) := by decide +kernel

/-- V381: CPIR miss. -/
theorem test_V381 :
    ((after [0xED, 0xB1] (((((State.reset.setA 0x99).setF 0x01).setBc 0x0003).setHl 0x2000).putCode 0x2000 [0x11, 0x22, 0x33, 0x44])).map fun t => (t.main.f, t.bc, t.hl)) =
      some (0x23, 0x0000, 0x2003) := by decide +kernel

/-- V382: CPDR. -/
theorem test_V382 :
    ((after [0xED, 0xB9] ((((State.reset.setA 0x11).setBc 0x0004).setHl 0x2003).putCode 0x2000 [0x11, 0x22, 0x33, 0x44])).map fun t => (t.main.f, t.bc, t.hl)) =
      some (0x43, 0x0000, 0x1FFF) := by decide +kernel

/-- V383: CPIR with BC=0: first byte (00) matches, BC=FFFF. -/
theorem test_V383 :
    ((after [0xED, 0xB1] (((State.reset.setA 0x00).setBc 0x0000).setHl 0x2000)).map fun t => (t.main.f, t.bc, t.hl)) =
      some (0x47, 0xFFFF, 0x2001) := by decide +kernel

/-- V384: LDI with BC=0 and wrapping pointers. -/
theorem test_V384 :
    ((after [0xED, 0xA0] (((((State.reset.setA 0x00).setBc 0x0000).setDe 0xFFFF).setHl 0xFFFF).putCode 0xFFFF [0x08])).map fun t => (t.main.f, t.bc, t.de, t.hl)) =
      some (0xCD, 0xFFFF, 0x0000, 0x0000) := by decide +kernel

/-- V390: IN A,(n): default device returns 00. -/
theorem test_V390 :
    ((after [0xDB, 0x10] (State.reset.setA 0x5A)).map fun t => (t.main.a, t.ioEvents)) =
      some (0x00, [.input 0x10 0x5A]) := by decide +kernel

/-- V391: OUT (n),A. -/
theorem test_V391 :
    ((after [0xD3, 0x01] (State.reset.setA 0x41)).map fun t => t.ioEvents) =
      some [.output 0x01 0x41] := by decide +kernel

/-- V392: NOP. -/
theorem test_V392 :
    ((after [0x00] State.reset).map fun t => t.pc) =
      some 0x0101 := by decide +kernel

/-- V393: HALT. -/
theorem test_V393 :
    ((after [0x76] State.reset).map fun t => t.running) =
      some false := by decide +kernel

/-- V394: DI. -/
theorem test_V394 :
    ((after [0xF3] State.reset).map fun t => t.pc) =
      some 0x0101 := by decide +kernel

/-- V395: EI. -/
theorem test_V395 :
    ((after [0xFB] State.reset).map fun t => t.pc) =
      some 0x0101 := by decide +kernel

/-- V400: unlisted ED. -/
theorem test_V400 : stopOf [0xED, 0x00] State.reset = some (.unimplementedOpcode [0xED, 0x00]) := by decide +kernel

/-- V405: LD A,R. -/
theorem test_V405 : stopOf [0xED, 0x5F] State.reset = some (.unimplementedOpcode [0xED, 0x5F]) := by decide +kernel

/-- V413: SET 0,(IY+0),A form. -/
theorem test_V413 : stopOf [0xFD, 0xCB, 0x00, 0xC7] State.reset = some (.unimplementedOpcode [0xFD, 0xCB, 0x00, 0xC7]) := by decide +kernel

/-- V420: run of prefixes: last one (FD) wins; one step. -/
theorem test_V420 :
    ((after [0xDD, 0xDD, 0xFD, 0x21, 0x34, 0x12] State.reset).map fun t => t.iy) =
      some 0x1234 := by decide +kernel

/-- V421: last prefix DD: reads (IX+1). -/
theorem test_V421 :
    ((after [0xFD, 0xDD, 0x7E, 0x01] ((((State.reset.setIx .ix 0x2000).setIx .iy 0x3000).putCode 0x2001 [0x11]).putCode 0x3001 [0x22])).map fun t => t.main.a) =
      some 0x11 := by decide +kernel

/-- V424: two prefixes then non-prefixable LD A,n: step 1 consumes both prefixes and backs up one. -/
theorem test_V424 :
    ((after [0xDD, 0xFD, 0x3E, 0x07] State.reset).map fun t => t.pc) =
      some 0x0102 := by decide +kernel

/-! ## Witnesses: states and operands that meet the hypotheses of the statements, clause by clause -/

/-- A machine with `RAM_SIZE = 0x1000`, every pointer at the last address its accesses may have. -/
def atEdge : State :=
  { State.construct { ramSize := 0x1000, initialPc := 0x0FFF, device := .replaced } with
    main := { a := 0x12, f := 0x45, b := 0x0F, c := 0xFF, d := 0x0F, e := 0xFF, h := 0x0F, l := 0xFF }
    ix := 0x0FFE, iy := 0x1007, sp := 0x0FFE
    mem := [(0x0FFE, 0x34), (0x0FFF, 0x56)] }

/-- The same machine, every pointer one further. -/
def pastEdge : State :=
  { atEdge with
    main := { a := 0x12, f := 0x45, b := 0x10, c := 0x00, d := 0x10, e := 0x00, h := 0x10, l := 0x00 }
    ix := 0x0FFF, iy := 0x1008, sp := 0x0FFF, pc := 0x1000 }

/-- 65536 bytes `DD`. -/
def prefixRam : State := { State.reset with mem := (List.range' 0 65536).map fun a => (a, 0xDD) }

theorem witness_ResetMeetsInvariant :
    Config.valid { ramSize := 2, initialPc := 0xFFFF, device := .replaced } = true ∧
    Config.valid { ramSize := 65536, initialPc := 0, device := .null } = true ∧
    Config.valid { ramSize := 1, initialPc := 0, device := .null } = false ∧
    Config.valid { ramSize := 65537, initialPc := 0, device := .null } = false := by
  decide

theorem witness_StepKeepsInvariant :
    State.reset.Inv ∧ atEdge.Inv ∧ after [] State.reset = some { State.reset with pc := 0x0101, starting := false } := by
  decide +kernel

theorem witness_HostLoadAndStop :
    State.reset.mem.wf = true ∧ State.reset.starting = true ∧ 0xFFFE + [0x01, 0x02].length ≤ State.reset.cfg.ramSize ∧
    (State.reset.hostLoad 0xFFFE [0x01, 0x02]).isSome ∧
    ¬ 0xFFFF + [0x01, 0x02].length ≤ State.reset.cfg.ramSize ∧ State.reset.hostLoad 0xFFFF [0x01, 0x02] = none ∧
    State.hostLoad { State.reset with starting := false } 0x0100 [0x01] = none := by
  decide +kernel

theorem witness_RegisterViews :
    PairQ.bc ≠ .af ∧ Reg8.h ≠ .l ∧ IdxReg.iy ≠ .ix ∧ Half.lo ≠ .hi ∧
    (State.reset.setPairQ .de 0x1234).getPairQ .hl = 0x0000 ∧ (State.reset.setPairQ .de 0x1234).main.d = 0x12 := by
  decide

theorem witness_ByteMemory :
    atEdge.mem.wf = true ∧ (0x0FFF : Word).toNat < atEdge.cfg.ramSize ∧ ¬ (0x1000 : Word).toNat < atEdge.cfg.ramSize ∧
    (0xFFFF : Word).toNat < State.reset.cfg.ramSize ∧ atEdge.memRead8 0x0FFF = .ok 0x56 := by
  decide +kernel

theorem witness_WordMemory :
    atEdge.mem.wf = true ∧ atEdge.WordInside 0x0FFE ∧ ¬ atEdge.WordInside 0x0FFF ∧ State.reset.WordInside 0xFFFE ∧
    ¬ State.reset.WordInside 0xFFFF ∧ atEdge.memRead16 0x0FFE = .ok 0x5634 := by
  decide +kernel

theorem witness_FetchByteAndWord :
    atEdge.pc.toNat < atEdge.cfg.ramSize ∧ ¬ pastEdge.pc.toNat < pastEdge.cfg.ramSize ∧
    (State.reset.jump 0xFFFF).fetch8 = .ok (0x00, State.reset.jump 0x0000) ∧
    (atEdge.jump 0x0FFE).fetch16 = .ok (0x5634, atEdge.jump 0x1000) ∧
    atEdge.fetch16 = .error (.memoryOutOfRange 0x0FFF) ∧
    (State.reset.jump 0xFFFE).fetch16 = .ok (0x0000, State.reset.jump 0x0000) ∧
    (State.reset.jump 0xFFFF).fetch16 = .error (.memoryOutOfRange 0xFFFF) := by
  decide +kernel

theorem witness_AddressArithmetic :
    atEdge.condShort .z = true ∧ atEdge.condShort .c = true ∧ atEdge.main.b ≠ 1 ∧ (atEdge.setR8 .b 0).main.b ≠ 1 ∧
    ¬ (atEdge.setR8 .b 1).main.b ≠ 1 ∧ (State.reset.setIx .iy 0xFFF0).ea .iy 0x7F = 0x006F ∧
    ((State.reset.jump 0x0001).jumpRel 0x80).pc = 0xFF81 := by
  decide +kernel

theorem witness_DecodeEncode : (Instr.ldXX .iy .hi .a).wf = true ∧ (Instr.rstP 1).wf = true := by decide

theorem witness_DecodedBytesAreCanonical :
    decode [0xFD, 0xDD, 0x09, 0x55] = .ok (.addIxRr .ix .bc, [0x55]) ∧ decode [0x09, 0x55] = .ok (.addHlRr .bc, [0x55]) :=
  ⟨rfl, rfl⟩

/-- With and without a prefix run, on both sides of each of the three faulting conditions. -/
theorem witness_DecodeIsTotal :
    (∀ b ∈ [(0xDD : Byte), 0xFD], b = 0xDD ∨ b = 0xFD) ∧ (0xC7 : Byte) ≠ 0xDD ∧ (0xC7 : Byte) ≠ 0xFD ∧
    decode [0xC7, 0, 0, 0] = .ok (.rst0, [0, 0, 0]) ∧ decode [0xCF, 0, 0, 0] = .ok (.rstP 1, [0, 0, 0]) ∧
    decode [0xDD, 0xFF, 0, 0, 0] = .ok (.prefixDiscarded .ix 0xFF, [0, 0, 0]) ∧
    decode [0xED, 0xB0, 0, 0] = .ok (.ldir, [0, 0]) ∧ decode [0xED, 0xB2, 0, 0] = .ok (.edOther 0xB2, [0, 0]) ∧
    decode [0xCB, 0x05, 0x10, 0] = .ok (.rlcR .l, [0x10, 0]) ∧
    decode [0xDD, 0xFD, 0xCB, 0x05, 0x10, 0] = .ok (.idxCbOther .iy 0x05 0x10, [0]) ∧
    decode [0xDD, 0xFD, 0xCB, 0x05, 0x16, 0] = .ok (.rlMemIx .iy 0x05, [0]) :=
  ⟨by decide, by decide, by decide, rfl, rfl, rfl, rfl, rfl, rfl, rfl, rfl⟩

/-- An instruction with a 16-bit immediate (at the last word of memory), one that lies across 0xFFFF and 0x0000, one at
0x0000 while starting; a 16-bit immediate at 0xFFFF, and one at the last byte and one past the last byte of memory. -/
theorem witness_StepRunsDecoded :
    decode [0x21, 0x34, 0x12] = .ok (.ldRrNn .hl 0x1234, []) ∧ hasImm16 (.ldRrNn .hl 0x1234) = true ∧
    (let s := (State.reset.jump 0xFFFD).putCode 0xFFFD [0x21, 0x34, 0x12]
     s.Fetches ∧ s.HoldsAt s.pc [0x21, 0x34, 0x12] ∧ s.pc + BitVec.ofNat 16 (3 - 2) ≠ 0xFFFF) ∧
    (let s := (State.reset.jump 0xFFFE).putCode 0xFFFE [0x21, 0x34, 0x12]
     s.Fetches ∧ s.HoldsAt s.pc [0x21] ∧ ¬ s.WordInside (s.pc + BitVec.ofNat 16 (3 - 2)) ∧
     stopOf [] s = some (.memoryOutOfRange 0xFFFF)) ∧
    (let s := (atEdge.jump 0x0FFE).putCode 0x0FFE [0x21]
     s.Fetches ∧ s.HoldsAt s.pc [0x21] ∧ ¬ s.WordInside (s.pc + BitVec.ofNat 16 (3 - 2)) ∧
     stopOf [] s = some (.memoryOutOfRange 0x0FFF)) ∧
    (let s := (atEdge.jump 0x0FFF).putCode 0x0FFF [0x21]
     s.Fetches ∧ s.HoldsAt s.pc [0x21] ∧ ¬ s.WordInside (s.pc + BitVec.ofNat 16 (3 - 2)) ∧
     stopOf [] s = some (.memoryOutOfRange 0x1000)) ∧
    (let s := (State.reset.jump 0xFFFF).putCode 0xFFFF [0x3E, 0x5A]
     s.Fetches ∧ s.HoldsAt s.pc [0x3E, 0x5A] ∧ hasImm16 (.ldRN .a 0x5A) = false) ∧
    (let s := State.reset.jump 0x0000
     s.Fetches ∧ s.HoldsAt s.pc [0x00]) := by
  unfold State.HoldsAt
  decide +kernel

theorem witness_StepStopsAtZero :
    let s : State := { State.reset with pc := 0x0000, starting := false }
    s.running = true ∧ s.pc = 0x0000 ∧ s.starting = false ∧ after [] s = some { s with running := false } := by
  decide +kernel

theorem witness_StepDiscardsPrefix :
    let s := State.reset.putCode 0x0100 ([0xDD, 0xFD] ++ [0x3E])
    s.Fetches ∧ s.latch = .none ∧ [(0xDD : Byte), 0xFD] ≠ [] ∧ (∀ b ∈ [(0xDD : Byte), 0xFD], b = 0xDD ∨ b = 0xFD) ∧
    (0x3E : Byte) ∉ ddFdPrefixable ∧ (0x3E : Byte) ≠ 0xDD ∧ (0x3E : Byte) ≠ 0xFD ∧
    s.HoldsAt s.pc ([0xDD, 0xFD] ++ [0x3E]) := by
  unfold State.HoldsAt
  decide +kernel

theorem witness_StepsWithoutNextState_notRunning :
    step { State.reset with running := false } = .refused .notRunning :=
  rfl

/-- A row of `DD` bytes reads as `DD` at each of its addresses. -/
theorem get_prefixes (n k a : Nat) (hk : k ≤ a) (ha : a < k + n) :
    Memory.get ((List.range' k n).map fun i => (i, (0xDD : Byte))) a = 0xDD := by
  induction n generalizing k with
  | zero => omega
  | succ n ih =>
    rw [List.range'_succ, List.map_cons, Memory.get]
    by_cases h : k = a
    · rw [if_pos h]
    · rw [if_neg h]
      exact ih (k + 1) (by omega) (by omega)

theorem witness_StepsWithoutNextState_endless :
    prefixRam.Fetches ∧ prefixRam.FullRam ∧ ∀ a : Word, prefixRam.byteAt a = 0xDD ∨ prefixRam.byteAt a = 0xFD :=
  ⟨⟨rfl, .inr rfl⟩, rfl, fun a => .inl (get_prefixes 65536 0 a.toNat (Nat.zero_le _) (by have := a.isLt; omega))⟩

/-- Each of the four ends, and `RET` and `RET cc` on the other side of their conditions. -/
theorem witness_OnlyStopsClearRunning :
    State.reset.running = true ∧ ((ran .halt State.reset).map (·.running)) = some false ∧
    ((ran .rst0 State.reset).map (·.running)) = some false ∧
    ((ran .ret State.reset).map fun t => (t.running, t.pc)) = some (false, 0x0000) ∧
    State.reset.cond .z = true ∧ ((ran (.retCc .z) State.reset).map (·.running)) = some false ∧
    State.reset.cond .nz = false ∧ ((ran (.retCc .nz) State.reset).map (·.running)) = some true ∧
    ((ran .ret atEdge).map fun t => (t.running, t.pc)) = some (true, 0x5634) := by
  decide +kernel

theorem witness_OnlyExchangesTouchAlternates :
    ran .nop atEdge = some atEdge ∧ Instr.exx ≠ .exAfAf ∧ ((ran .exx atEdge).map (·.alt.b)) = some 0x0F ∧
    ((ran .exAfAf atEdge).map (·.alt.a)) = some 0x12 := by
  decide +kernel

theorem witness_OnlyListedInstructionsWriteF :
    writesF (.popQq .bc) = false ∧ (ran (.popQq .bc) atEdge).isSome ∧ writesF (.popQq .af) = true ∧
    writesF .cpir = true := by
  decide +kernel

theorem witness_OnlyDestinationsChange :
    writesReg .h (.addHlRr .sp) = true ∧ writesReg .d (.addHlRr .sp) = false ∧ (ran (.addHlRr .sp) atEdge).isSome ∧
    writesReg .a .exx = false ∧ (ran .exx atEdge).isSome := by
  decide +kernel

theorem witness_OnlyListedInstructionsWriteSpAndIndex :
    writesSp (.incRr .hl) = false ∧ writesSp (.incRr .sp) = true ∧ writesIdx .iy (.incIx .ix) = false ∧
    writesIdx .ix (.ldXX .ix .b .hi) = false ∧ writesIdx .ix (.ldXX .ix .hi .b) = true ∧
    (ran (.incIx .ix) atEdge).isSome := by
  decide +kernel

theorem witness_OnlyStoresWriteMemory :
    writesMemory (.cpMemIx .ix 0x01) = false ∧ (ran (.cpMemIx .ix 0x01) atEdge).isSome ∧ writesMemory .ldir = true := by
  decide +kernel

theorem witness_OnlyTransfersWritePc :
    writesPc (.ldMemNnA 0x0FFF) = false ∧ (ran (.ldMemNnA 0x0FFF) atEdge).isSome ∧ writesPc .halt = false := by
  decide +kernel

theorem witness_SystemStateIsKept :
    (ran (.outNA 0x01) atEdge).isSome ∧ (ran .di atEdge).isSome ∧ Instr.di ≠ .ddPrefix ∧ Instr.di ≠ .fdPrefix := by
  decide +kernel

theorem witness_LoadRegister :
    Reg8.b ≠ .a ∧ RegX.lo ≠ .hi ∧ Half.lo ≠ .hi ∧ IdxReg.iy ≠ .ix ∧
    ((ran (.ldXX .ix .lo .hi) (State.reset.setIx .ix 0x12FF)).map (·.ix)) = some 0x1212 := by
  decide +kernel

/-- The last byte of memory and the first address past it, for each address an operand names. -/
theorem witness_LoadFromMemory :
    atEdge.hl.toNat < atEdge.cfg.ramSize ∧ ¬ pastEdge.hl.toNat < pastEdge.cfg.ramSize ∧
    (atEdge.ea .ix 0x01).toNat < atEdge.cfg.ramSize ∧ ¬ (pastEdge.ea .ix 0x01).toNat < pastEdge.cfg.ramSize ∧
    (atEdge.ea .iy 0xF8).toNat < atEdge.cfg.ramSize ∧ ¬ (pastEdge.ea .iy 0xF8).toNat < pastEdge.cfg.ramSize ∧
    ((ran (.ldRMemIx .iy .l 0xF8) atEdge).map (·.hl)) = some 0x0F56 ∧
    faultOf (.ldAMemNn 0x1000) atEdge = some (.memoryOutOfRange 0x1000) := by
  decide +kernel

theorem witness_LoadAIndirect :
    atEdge.mem.wf = true ∧ atEdge.bc.toNat < atEdge.cfg.ramSize ∧ ¬ pastEdge.bc.toNat < pastEdge.cfg.ramSize ∧
    atEdge.de.toNat < atEdge.cfg.ramSize ∧ ¬ pastEdge.de.toNat < pastEdge.cfg.ramSize := by
  decide +kernel

theorem witness_StoreByte :
    atEdge.mem.wf = true ∧ atEdge.hl.toNat < atEdge.cfg.ramSize ∧ ¬ pastEdge.hl.toNat < pastEdge.cfg.ramSize ∧
    (atEdge.ea .iy 0xF8).toNat < atEdge.cfg.ramSize ∧ ¬ (pastEdge.ea .iy 0xF8).toNat < pastEdge.cfg.ramSize ∧
    ((ran (.ldMemIxN .iy 0xF8 0x77) atEdge).map (·.byteAt 0x0FFF)) = some 0x77 := by
  decide +kernel

theorem witness_LoadRegister16 :
    Pair.bc ≠ .sp ∧ IdxReg.iy ≠ .ix ∧ ((ran (.ldRrNn .sp 0x9000) atEdge).map (·.sp)) = some 0x9000 := by
  decide +kernel

theorem witness_LoadAndStoreWord :
    atEdge.mem.wf = true ∧ (0x0FFE : Word).toNat + 1 < atEdge.cfg.ramSize ∧
    ¬ (0x0FFF : Word).toNat + 1 < atEdge.cfg.ramSize ∧ ((ran (.ldRrMemNn .de 0x0FFE) atEdge).map (·.de)) = some 0x5634 ∧
    faultOf (.ldMemNnHl 0xFFFF) State.reset = some (.memoryOutOfRange 0xFFFF) := by
  decide +kernel

theorem witness_AlgebraicLaws :
    State.reset.mem.wf = true ∧ (ran (.pushQq .bc) State.reset).isSome ∧ (ran (.pushIx .iy) State.reset).isSome ∧
    (((ran (.pushQq .bc) State.reset).bind (ran (.popIx .iy))).map fun t => (t.iy, t.sp)) = some (0x00FF, 0xF800) ∧
    (ran (.pushQq .bc) (State.reset.setPair .sp 0x0000)).isSome ∧
    (ran (.pushIx .ix) (State.reset.setPair .sp 0x0001)).isSome = false := by
  decide +kernel

theorem witness_ExchangeWithStack :
    atEdge.mem.wf = true ∧ atEdge.WordInside atEdge.sp ∧ ¬ pastEdge.WordInside pastEdge.sp ∧
    ((ran (.exMemSpIx .iy) atEdge).map fun t => (t.iy, t.byteAt 0x0FFE, t.byteAt 0x0FFF)) =
      some (0x5634, 0x07, 0x10) := by
  decide +kernel

/-- SP from which a push lands on the last word of memory, and the next; SP at the last word, and the next; the wrap of
SP at 0x0000 and 0x0001 with the whole address space. -/
theorem witness_StackPrimitives :
    atEdge.mem.wf = true ∧ (atEdge.setPair .sp 0x1000).WordInside (0x1000 - 2) ∧
    ¬ (atEdge.setPair .sp 0x1001).WordInside (0x1001 - 2) ∧ atEdge.WordInside atEdge.sp ∧
    ¬ pastEdge.WordInside pastEdge.sp ∧ State.reset.WordInside (0x0000 - 2) ∧ ¬ State.reset.WordInside (0x0001 - 2) := by
  decide +kernel

theorem witness_PushAndPop :
    (let s := atEdge.setPair .sp 0x1000; s.mem.wf = true ∧ s.WordInside (s.sp - 2)) ∧
    (let s := atEdge.setPair .sp 0x1001; s.mem.wf = true ∧ ¬ s.WordInside (s.sp - 2)) ∧
    atEdge.WordInside atEdge.sp ∧ ¬ pastEdge.WordInside pastEdge.sp ∧ PairQ.bc ≠ .af := by
  decide +kernel

/-- For AddAndAdc, SubAndSbc, LogicOperations and Compare: both sides of the two memory forms. -/
theorem witness_AddAndAdc_SubAndSbc_LogicOperations_Compare :
    atEdge.hl.toNat < atEdge.cfg.ramSize ∧ ¬ pastEdge.hl.toNat < pastEdge.cfg.ramSize ∧
    (atEdge.ea .ix 0x01).toNat < atEdge.cfg.ramSize ∧ ¬ (pastEdge.ea .ix 0x01).toNat < pastEdge.cfg.ramSize ∧
    ((ran (.cpMemIx .ix 0x01) atEdge).map (·.main.a)) = some 0x12 := by
  decide +kernel

theorem witness_IncrementAndDecrement :
    atEdge.mem.wf = true ∧ Reg8.h ≠ .l ∧ Half.hi ≠ .lo ∧ IdxReg.ix ≠ .iy ∧ atEdge.hl.toNat < atEdge.cfg.ramSize ∧
    ¬ pastEdge.hl.toNat < pastEdge.cfg.ramSize ∧ (atEdge.ea .iy 0xF8).toNat < atEdge.cfg.ramSize ∧
    ¬ (pastEdge.ea .iy 0xF8).toNat < pastEdge.cfg.ramSize := by
  decide +kernel

theorem witness_DaaCorrectsBcd :
    (State.reset.setA 0x99).main.a = BitVec.ofNat 8 (99 / 10 * 16 + 99 % 10) ∧
    (State.reset.setA 0x00).main.a = BitVec.ofNat 8 (0 / 10 * 16 + 0 % 10) := by
  decide

theorem witness_IncrementAndDecrement16 :
    Pair.de ≠ .hl ∧ IdxReg.iy ≠ .ix ∧ ((ran (.decRr .de) atEdge).map fun t => (t.de, t.hl)) = some (0x0FFE, 0x0FFF) := by
  decide +kernel

theorem witness_RotatesAndShifts :
    atEdge.mem.wf = true ∧ Reg8.h ≠ .l ∧ atEdge.hl.toNat < atEdge.cfg.ramSize ∧
    ¬ pastEdge.hl.toNat < pastEdge.cfg.ramSize ∧ (atEdge.ea .ix 0x01).toNat < atEdge.cfg.ramSize ∧
    ¬ (pastEdge.ea .ix 0x01).toNat < pastEdge.cfg.ramSize := by
  decide +kernel

theorem witness_BitOperations :
    atEdge.mem.wf = true ∧ Reg8.h ≠ .l ∧ atEdge.hl.toNat < atEdge.cfg.ramSize ∧
    ¬ pastEdge.hl.toNat < pastEdge.cfg.ramSize ∧ (atEdge.ea .iy 0xF8).toNat < atEdge.cfg.ramSize ∧
    ¬ (pastEdge.ea .iy 0xF8).toNat < pastEdge.cfg.ramSize ∧
    ((ran (.setMemIx 7 .iy 0xF8) atEdge).map (·.byteAt 0x0FFF)) = some 0xD6 := by
  decide +kernel

theorem witness_DecimalRotates :
    atEdge.mem.wf = true ∧ atEdge.hl.toNat < atEdge.cfg.ramSize ∧ ¬ pastEdge.hl.toNat < pastEdge.cfg.ramSize := by
  decide +kernel

/-- Each side of each condition of the two flag bytes, and of DJNZ. -/
theorem witness_Jumps :
    (State.reset.setF 0x45).cond .z = true ∧ (State.reset.setF 0x45).cond .nz = false ∧
    (State.reset.setF 0x45).cond .c = true ∧ (State.reset.setF 0x45).cond .nc = false ∧
    (State.reset.setF 0x45).cond .pe = true ∧ (State.reset.setF 0x45).cond .po = false ∧
    (State.reset.setF 0x80).cond .m = true ∧ (State.reset.setF 0x80).cond .p = false ∧
    (State.reset.setR8 .b 1).main.b = 1 ∧ State.reset.main.b ≠ 1 := by
  decide

theorem witness_CallsAndReturns :
    (let s := atEdge.setPair .sp 0x1000; s.mem.wf = true ∧ s.WordInside (s.sp - 2) ∧ s.cond .z = true) ∧
    (let s := atEdge.setPair .sp 0x1001; s.mem.wf = true ∧ ¬ s.WordInside (s.sp - 2) ∧ s.cond .z = true) ∧
    atEdge.WordInside atEdge.sp ∧ atEdge.cond .z = true ∧ ¬ pastEdge.WordInside pastEdge.sp ∧
    pastEdge.cond .z = true ∧ atEdge.cond .m = false := by
  decide +kernel

/-- Both addresses inside; the source inside and the destination outside; the source outside; BC = 1 and BC = 0. -/
theorem witness_BlockPasses :
    atEdge.mem.wf = true ∧ atEdge.hl.toNat < atEdge.cfg.ramSize ∧ atEdge.de.toNat < atEdge.cfg.ramSize ∧
    ¬ (atEdge.setDe 0x1000).de.toNat < atEdge.cfg.ramSize ∧ ¬ pastEdge.hl.toNat < pastEdge.cfg.ramSize ∧
    ((ran .ldi (atEdge.setBc 1)).map fun t => (t.bc, t.flagPV)) = some (0x0000, false) ∧
    ((ran .ldi (atEdge.setBc 0)).map fun t => (t.bc, t.flagPV)) = some (0xFFFF, true) := by
  decide +kernel

/-- A pass that ends the loop, one that goes on, one that matches, and one that faults. -/
theorem witness_RepeatingFormsIterate :
    ((ran .ldi (State.reset.setBc 1)).map (·.bc)) = some 0x0000 ∧
    ((ran .ldd (State.reset.setBc 2)).map (·.bc)) = some 0x0001 ∧
    ((ran .cpi (State.reset.setA 0x00)).map (·.flagZ)) = some true ∧
    ((ran .cpd (State.reset.setA 0x01)).map (·.flagZ)) = some false ∧
    faultOf .ldi pastEdge = some (.memoryOutOfRange 0x1000) ∧ faultOf .ldd pastEdge = some (.memoryOutOfRange 0x1000) ∧
    faultOf .cpi pastEdge = some (.memoryOutOfRange 0x1000) ∧ faultOf .cpd pastEdge = some (.memoryOutOfRange 0x1000) := by
  decide +kernel

/-- One byte, and the longest move up to the last address, upward and downward, on both sides of the source. -/
theorem witness_RepeatedTransfer :
    (let s := ((State.reset.setHl 0xFFFF).setDe 0x0000).setBc 1
     s.FullRam ∧ s.mem.wf = true ∧ s.bc ≠ 0 ∧ s.hl.toNat + s.bc.toNat ≤ 65536 ∧ s.de.toNat + s.bc.toNat ≤ 65536 ∧
     s.de.toNat ≤ s.hl.toNat) ∧
    (let s := ((State.reset.setHl 0x0000).setDe 0x8000).setBc 0x8000
     s.FullRam ∧ s.mem.wf = true ∧ s.bc ≠ 0 ∧ s.hl.toNat + s.bc.toNat ≤ 65536 ∧ s.de.toNat + s.bc.toNat ≤ 65536 ∧
     s.hl.toNat + s.bc.toNat ≤ s.de.toNat) ∧
    (let s := ((State.reset.setHl 0x0000).setDe 0xFFFF).setBc 1
     s.FullRam ∧ s.bc ≠ 0 ∧ s.bc.toNat ≤ s.hl.toNat + 1 ∧ s.bc.toNat ≤ s.de.toNat + 1 ∧ s.hl.toNat ≤ s.de.toNat) ∧
    (let s := ((State.reset.setHl 0xFFFF).setDe 0x7FFF).setBc 0x8000
     s.FullRam ∧ s.bc ≠ 0 ∧ s.bc.toNat ≤ s.hl.toNat + 1 ∧ s.bc.toNat ≤ s.de.toNat + 1 ∧
     s.de.toNat + s.bc.toNat ≤ s.hl.toNat) ∧
    (State.reset.setBc 0).FullRam := by
  decide +kernel

theorem witness_RepeatedSearch :
    State.reset.FullRam ∧ State.reset.bc ≠ 0 ∧ (State.reset.setBc 0).bc = 0 ∧
    ((ran .cpir ((State.reset.setA 0x01).setBc 2)).map fun t => (t.bc, t.flagZ)) = some (0x0000, false) ∧
    ((ran .cpdr ((State.reset.setA 0x00).setBc 0)).map fun t => (t.bc, t.flagZ)) = some (0xFFFF, true) := by
  decide +kernel

theorem witness_IoAndControl :
    State.reset.cfg.device = .null ∧ atEdge.cfg.device ≠ .null ∧
    ((ran (.inAN 0x10) State.reset).map fun t => (t.main.a, t.ioEvents)) = some (0x00, [.input 0x10 0xFF]) := by
  decide +kernel

/-- The escape rows with their opcode as the last byte of memory or across the wrap, and the six conditions. -/
theorem witness_DecoderRows :
    atEdge.pc.toNat < atEdge.cfg.ramSize ∧ ¬ (atEdge.pc + 1).toNat < atEdge.cfg.ramSize ∧
    (let s := State.jump atEdge 0x0FFE
     s.pc.toNat < s.cfg.ramSize ∧ (s.pc + 1).toNat < s.cfg.ramSize) ∧
    decode [0xED, 0x5B, 0x00, 0x20] = .ok (.ldRrMemNn .de 0x2000, []) ∧
    (let s := (State.reset.jump 0xFFFD).putCode 0xFFFD [0x5B, 0x00, 0x20]
     s.HoldsAt s.pc [0x5B, 0x00, 0x20] ∧ hasImm16 (.ldRrMemNn .de 0x2000) = true ∧ s.pc + 1 ≠ 0xFFFF ∧ s.FullRam ∧
     s.byteAt s.pc ∈ edImplemented ∧ s.byteAt s.pc &&& 0xC7 = 0x43 ∧ s.wordAt (s.pc + 1) ≠ 0xFFFF) ∧
    (let s := State.reset.putCode 0x0100 [0x05, 0x16]
     s.FullRam ∧ s.byteAt (s.pc + 1) &&& 7 = 6) := by
  unfold State.HoldsAt
  decide +kernel

end Sys2Proof.Tests
end

section
/-! The statements of 00_scope.md: the state at construction, and PC past the instruction's own bytes. -/

namespace Sys2Proof.Machine

/-- Every field that the invariant speaks of is fixed at construction, but for the parameters (00_scope.md R7). -/
theorem State.construct_inv (cfg : Config) (h : cfg.valid = true) : (State.construct cfg).Inv :=
  ⟨h, rfl, rfl, rfl, rfl, rfl⟩

/-- Settles O2: `State.reset` is the construction with parameters that R7 allows. -/
theorem resetMeetsInvariant : Obligations.ResetMeetsInvariant :=
  ⟨State.construct_inv, State.construct_inv Config.standard rfl⟩

/-- 00_scope.md R12: the operation of an instruction that transfers no control finds PC past its bytes and leaves it
there. The cases are grouped by the shared operation that the instruction's meaning is, and each group cites the lemma
that says what that operation can answer. -/
theorem exec_keeps_pc (i : Instr) (s t : State) (hi : writesPc i = false) (h : exec i s = .next t) : t.pc = s.pc := by
  cases i with
  -- the rows that write PC, which `hi` excludes
  | djnz | jr | jrCc | retCc | jpCcNn | jpNn | callCcNn | ret | cbEscape | callNn | jpHl | edEscape | cbEscapeIndexed
  | jpIx | prefixDiscarded => cases hi
  -- the rows that fault in every state
  | rstP | idxCbOther | edOther => cases h
  -- an effect on fixed elements of the state
  | nop | di | ei | halt | rst0 | ddPrefix | fdPrefix | outNA | inAN | exAfAf | exx | exDeHl | ldSpHl | ldSpIx | ldAI
  | rlca | rrca | rla | rra | daa | cpl | neg | scf | ccf | addHlRr | adcHlRr | sbcHlRr
  | addAR | addAN | addAIxHalf | adcAR | adcAN | adcAIxHalf | subR | subN | subIxHalf | sbcAR | sbcAN | sbcAIxHalf
  | andR | andN | andIxHalf | xorR | xorN | xorIxHalf | orR | orN | orIxHalf | cpR | cpN | cpIxHalf | bitR =>
    cases h
    rfl
  -- a write of the register that an operand names
  | ldRR | ldRN | ldXX | ldIxHalfN | ldRrNn | ldIxNn | incR | decR | incIxHalf | decIxHalf | incRr | decRr | incIx
  | decIx | addIxRr | resR | setR =>
    cases h
    simp
  -- the same with a rotate or shift
  | rlcR | rrcR | rlR | rrR | slaR | sraR | sllR | srlR =>
    cases h
    simp [State.rotR8]
  -- one byte read from memory
  | ldAMemBc | ldAMemDe | ldAMemNn | addAMemHl | addAMemIx | adcAMemHl | adcAMemIx | subMemHl | subMemIx | sbcAMemHl
  | sbcAMemIx | andMemHl | andMemIx | xorMemHl | xorMemIx | orMemHl | orMemIx | cpMemHl | cpMemIx | bitMemHl
  | bitMemIx =>
    obtain ⟨-, rfl⟩ := (s.withByte_next t _ _).1 h
    rfl
  | ldRMemHl | ldRMemIx =>
    obtain ⟨-, rfl⟩ := (s.withByte_next t _ _).1 h
    simp
  -- one word read from memory
  | ldHlMemNn | ldIxMemNn | ldRrMemNn =>
    obtain ⟨-, rfl⟩ := (s.withWord_next t _ _).1 h
    simp
  -- a store
  | ldMemBcA | ldMemDeA | ldMemNnA | ldMemHlN | ldMemHlR | ldMemIxN | ldMemIxR =>
    obtain ⟨-, rfl⟩ := (s.storeByte_next t _ _).1 h
    rfl
  | ldMemNnHl | ldMemNnIx | ldMemNnRr =>
    obtain ⟨-, rfl⟩ := (s.storeWord_next t _ _).1 h
    rfl
  -- a memory byte replaced
  | incMemHl | incMemIx | decMemHl | decMemIx | rlcMemHl | rlcMemIx | rrcMemHl | rrcMemIx | rlMemHl | rlMemIx
  | rrMemHl | rrMemIx | slaMemHl | slaMemIx | sraMemHl | sraMemIx | sllMemHl | sllMemIx | srlMemHl | srlMemIx
  | resMemHl | resMemIx | setMemHl | setMemIx =>
    obtain ⟨-, rfl⟩ := (s.modifyByte_next t _ _ _).1 h
    rfl
  | rld | rrd =>
    obtain ⟨-, rfl⟩ := (s.rotDec_next t _).1 h
    rfl
  -- the stack
  | pushQq | pushIx =>
    obtain ⟨-, rfl⟩ := (s.push16_ok t _).1 ((toResult_next _ t).1 h)
    rfl
  | popQq q =>
    obtain ⟨-, rfl⟩ := (execPopQq_next q s t).1 h
    simp
  | popIx j =>
    obtain ⟨-, rfl⟩ := (execPopIx_next j s t).1 h
    simp
  | exMemSpHl =>
    obtain ⟨-, rfl⟩ := (execExMemSpHl_next s t).1 h
    rfl
  | exMemSpIx j =>
    obtain ⟨-, rfl⟩ := (execExMemSpIx_next j s t).1 h
    simp
  -- one pass of a block instruction
  | ldi | ldd =>
    obtain ⟨-, -, -, -, ht⟩ := s.ldx_fields t _ ((toResult_next _ t).1 h)
    rw [ht]
  | cpi | cpd =>
    obtain ⟨-, -, -, -, ht⟩ := s.cpx_fields t _ ((toResult_next _ t).1 h)
    rw [ht]
  -- the passes of a repeating form
  | ldir | lddr =>
    obtain ⟨ht, -⟩ := blockLoop_ldx_frame _ _ _ s t ((toResult_next _ t).1 h)
    rw [ht]
  | cpir | cpdr =>
    obtain ⟨ht, -⟩ := blockLoop_cpx_frame _ _ _ s t ((toResult_next _ t).1 h)
    rw [ht]

/-- Settles O24, by cases on the instruction. -/
theorem onlyTransfersWritePc : Obligations.OnlyTransfersWritePc :=
  exec_keeps_pc

end Sys2Proof.Machine
end

section
/-! What an instruction may change: the parts of the state, the footprint `mayWrite` read off the tables of Safety.lean,
and `Within`, which says that a state differs from another only inside a footprint, with one rule per update. -/

namespace Sys2Proof.Machine

/-! ## Footprints -/

/-- The parts of the state of which some instruction leaves each unchanged. PC is not among them (`exec_keeps_pc`). -/
inductive Part where
  | f
  | reg (r : Reg8)
  | sp
  | idx (j : IdxReg)
  | mem
  /-- A' and F'. -/
  | altAf
  /-- B' to L'. -/
  | altRest
  | latch
  | running
  | io
  /-- I, R, `starting` and the parameters, which no instruction writes. -/
  | system

/-- The data that a part holds. -/
abbrev Part.Val : Part → Type
  | .f | .reg _ => Byte
  | .sp | .idx _ => Word
  | .mem => Memory
  | .altAf => Byte × Byte
  | .altRest => Byte × Byte × Byte × Byte × Byte × Byte
  | .latch => Latch
  | .running => Bool
  | .io => List IoEvent
  | .system => Byte × Byte × Bool × Config

/-- A part of a state. -/
def State.part (s : State) : (p : Part) → p.Val
  | .f => s.main.f
  | .reg r => s.getR8 r
  | .sp => s.sp
  | .idx j => s.getIx j
  | .mem => s.mem
  | .altAf => (s.alt.a, s.alt.f)
  | .altRest => (s.alt.b, s.alt.c, s.alt.d, s.alt.e, s.alt.h, s.alt.l)
  | .latch => s.latch
  | .running => s.running
  | .io => s.ioEvents
  | .system => (s.i, s.r, s.starting, s.cfg)

/-- The instruction that writes A' and F' (10_state.md R23). -/
def writesAltAf : Instr → Bool
  | .exAfAf => true
  | _ => false

/-- The instruction that writes B' to L' (R23). -/
def writesAltRest : Instr → Bool
  | .exx => true
  | _ => false

/-- The rows that set the latch (40_instruction_cycle.md R134). -/
def writesLatch : Instr → Bool
  | .ddPrefix | .fdPrefix => true
  | _ => false

/-- The instructions that can stop the machine (10_state.md R36). -/
def writesRunning : Instr → Bool
  | .halt | .rst0 | .ret | .retCc _ => true
  | _ => false

/-- The instructions that call the I/O port (20_memory.md R80, R81). -/
def writesIo : Instr → Bool
  | .inAN _ | .outNA _ => true
  | _ => false

/-- The footprint of an instruction: the parts that it may write. -/
def mayWrite (i : Instr) : Part → Bool
  | .f => writesF i
  | .reg r => writesReg r i
  | .sp => writesSp i
  | .idx j => writesIdx j i
  | .mem => writesMemory i
  | .altAf => writesAltAf i
  | .altRest => writesAltRest i
  | .latch => writesLatch i
  | .running => writesRunning i
  | .io => writesIo i
  | .system => false

/-- Memory is canonical and inside `RAM_SIZE` (20_memory.md R60, R67). -/
def State.MemOk (s : State) : Prop := s.mem.wf = true ∧ s.mem.inside s.cfg.ramSize = true

/-- `t` differs from `s` only in the parts of `W` and in PC, and its memory is legal when that of `s` is. -/
structure Within (W : Part → Bool) (s t : State) : Prop where
  part : ∀ p, W p = false → t.part p = s.part p
  memOk : s.MemOk → t.MemOk

namespace Within

variable {W : Part → Bool} {s t u : State}

theorem refl : Within W s s := ⟨fun _ _ => rfl, id⟩

theorem trans (hu : Within W s u) (ht : Within W u t) : Within W s t :=
  ⟨fun p hp => (ht.part p hp).trans (hu.part p hp), ht.memOk ∘ hu.memOk⟩

/-- A larger footprint allows more. -/
theorem mono {V : Part → Bool} (h : Within V s t) (hVW : ∀ p, W p = false → V p = false) : Within W s t :=
  ⟨fun p hp => h.part p (hVW p hp), h.memOk⟩

/-! ## One rule per update -/

theorem setPc (a : Word) : Within W s { s with pc := a } where
  part p _ := by cases p <;> rfl
  memOk := id

theorem setF (hf : W .f = true) (v : Byte) : Within W s (s.setF v) where
  part p hp := by
    cases p with
    | f => exact absurd hp (by simp [hf])
    | _ => rfl
  memOk := id

theorem setR8 {r : Reg8} (hr : W (.reg r) = true) (v : Byte) : Within W s (s.setR8 r v) where
  part p hp := by
    cases p with
    | reg q => exact s.setR8_getR8_other r q v (by rintro rfl; simp [hr] at hp)
    | _ => cases r <;> rfl
  memOk := by cases r <;> exact id

theorem setIx {j : IdxReg} (hj : W (.idx j) = true) (v : Word) : Within W s (s.setIx j v) where
  part p hp := by
    cases p with
    | idx k => exact s.setIx_getIx_other j k v (by rintro rfl; simp [hj] at hp)
    | _ => cases j <;> rfl
  memOk := by cases j <;> exact id

theorem setSp (h : W .sp = true) (v : Word) : Within W s { s with sp := v } where
  part p hp := by
    cases p with
    | sp => exact absurd hp (by simp [h])
    | _ => rfl
  memOk := id

theorem setLatch (h : W .latch = true) (x : Latch) : Within W s (s.setLatch x) where
  part p hp := by
    cases p with
    | latch => exact absurd hp (by simp [h])
    | _ => rfl
  memOk := id

theorem setRunning (h : W .running = true) (b : Bool) : Within W s { s with running := b } where
  part p hp := by
    cases p with
    | running => exact absurd hp (by simp [h])
    | _ => rfl
  memOk := id

theorem setIo (h : W .io = true) (es : List IoEvent) : Within W s { s with ioEvents := es } where
  part p hp := by
    cases p with
    | io => exact absurd hp (by simp [h])
    | _ => rfl
  memOk := id

/-- A write of one byte inside memory. -/
theorem put (h : W .mem = true) {a : Nat} (ha : a < s.cfg.ramSize) (v : Byte) :
    Within W s { s with mem := s.mem.put a v } where
  part p hp := by
    cases p with
    | mem => exact absurd hp (by simp [h])
    | _ => rfl
  memOk hs := ⟨Memory.put_wf _ _ _ hs.1, Memory.put_inside _ _ _ _ hs.2 ha⟩

/-! ## The shared operations -/

theorem putByte (h : W .mem = true) {a : Word} (ha : s.byteOk a = true) (v : Byte) :
    Within W s { s with mem := s.mem.put a.toNat v } :=
  put h ((s.byteOk_iff a).1 ha) v

theorem putWord (h : W .mem = true) {a : Word} (ha : s.wordOk a = true) (lo hi : Byte) :
    Within W s { s with mem := (s.mem.put a.toNat lo).put (a.toNat + 1) hi } :=
  have hlt : a.toNat + 1 < s.cfg.ramSize := ((s.wordOk_iff a).1 ha).1
  (put h (Nat.lt_of_succ_lt hlt) lo).trans (put (s := { s with mem := s.mem.put a.toNat lo }) h hlt hi)

theorem setA (ha : W (.reg .a) = true) (v : Byte) : Within W s (s.setA v) := setR8 ha v

theorem setA_setF (ha : W (.reg .a) = true) (hf : W .f = true) (v f : Byte) : Within W s ((s.setA v).setF f) :=
  (setA ha v).trans (setF hf f)

theorem setR8_setF {r : Reg8} (hr : W (.reg r) = true) (hf : W .f = true) (v f : Byte) :
    Within W s ((s.setR8 r v).setF f) :=
  (setR8 hr v).trans (setF hf f)

theorem setBc (hb : W (.reg .b) = true) (hc : W (.reg .c) = true) (v : Word) : Within W s (s.setBc v) :=
  (setR8 hb (hiByte v)).trans (setR8 hc (loByte v))

theorem setDe (hd : W (.reg .d) = true) (he : W (.reg .e) = true) (v : Word) : Within W s (s.setDe v) :=
  (setR8 hd (hiByte v)).trans (setR8 he (loByte v))

theorem setHl (hh : W (.reg .h) = true) (hl : W (.reg .l) = true) (v : Word) : Within W s (s.setHl v) :=
  (setR8 hh (hiByte v)).trans (setR8 hl (loByte v))

theorem setPair (p : Pair) (hr : ∀ r, pairHas p r = true → W (.reg r) = true) (hsp : p = .sp → W .sp = true)
    (v : Word) : Within W s (s.setPair p v) := by
  cases p with
  | bc => exact setBc (hr .b rfl) (hr .c rfl) v
  | de => exact setDe (hr .d rfl) (hr .e rfl) v
  | hl => exact setHl (hr .h rfl) (hr .l rfl) v
  | sp => exact setSp (hsp rfl) v

theorem setPairQ (q : PairQ) (hr : ∀ r, pairQHas q r = true → W (.reg r) = true) (hf : q = .af → W .f = true)
    (v : Word) : Within W s (s.setPairQ q v) := by
  cases q with
  | bc => exact setBc (hr .b rfl) (hr .c rfl) v
  | de => exact setDe (hr .d rfl) (hr .e rfl) v
  | hl => exact setHl (hr .h rfl) (hr .l rfl) v
  | af => exact setA_setF (hr .a rfl) (hf rfl) (hiByte v) (loByte v)

theorem setHalf {j : IdxReg} (hj : W (.idx j) = true) (h : Half) (v : Byte) : Within W s (s.setHalf j h v) := by
  cases h <;> exact setIx hj _

theorem setX {j : IdxReg} (x : RegX) (hr : ∀ r, regXIs x r = true → W (.reg r) = true)
    (hj : x.isHalf = true → W (.idx j) = true) (v : Byte) : Within W s (s.setX j x v) := by
  cases x with
  | b => exact setR8 (hr .b rfl) v
  | c => exact setR8 (hr .c rfl) v
  | d => exact setR8 (hr .d rfl) v
  | e => exact setR8 (hr .e rfl) v
  | hi => exact setHalf (hj rfl) .hi v
  | lo => exact setHalf (hj rfl) .lo v
  | a => exact setR8 (hr .a rfl) v

/-- PUSH writes SP and memory. -/
theorem push16 (hsp : W .sp = true) (hm : W .mem = true) {v : Word} (h : s.push16 v = .ok t) : Within W s t := by
  obtain ⟨hok, rfl⟩ := (s.push16_ok t v).1 h
  exact (setSp hsp (s.sp - 2)).trans (putWord (s := { s with sp := s.sp - 2 }) hm hok (loByte v) (hiByte v))

theorem call (hsp : W .sp = true) (hm : W .mem = true) {nn : Word} (h : s.call nn = .next t) : Within W s t := by
  obtain ⟨u, hu, rfl⟩ := (s.call_next t nn).1 h
  exact (push16 hsp hm hu).trans (setPc nn)

theorem doRet (hsp : W .sp = true) (hr : W .running = true) (h : s.doRet = .next t) : Within W s t := by
  obtain ⟨-, rfl⟩ := (s.doRet_next t).1 h
  have hpop := (setSp (s := s) hsp (s.sp + 2)).trans (setPc (s.wordAt s.sp))
  exact hpop.trans (setRunning (s := { s with sp := _, pc := _ }) hr _)

/-- One pass of a transfer writes every register but A. -/
theorem ldx (hf : W .f = true) (hm : W .mem = true) (hr : ∀ r, decide (r ≠ .a) = true → W (.reg r) = true) {d : Word}
    (h : s.ldx d = .ok t) : Within W s t := by
  obtain ⟨-, hde, rfl⟩ := (s.ldx_ok t d).1 h
  have hhl := (putByte hm hde (s.byteAt s.hl)).trans (setHl (hr .h rfl) (hr .l rfl) (s.hl + d))
  have hbc := (hhl.trans (setDe (hr .d rfl) (hr .e rfl) (s.de + d))).trans (setBc (hr .b rfl) (hr .c rfl) (s.bc - 1))
  exact hbc.trans (setF hf _)

/-- One pass of a search writes F, BC and HL. -/
theorem cpx (hf : W .f = true) (hbc : W (.reg .b) = true ∧ W (.reg .c) = true)
    (hhl : W (.reg .h) = true ∧ W (.reg .l) = true) {d : Word} (h : s.cpx d = .ok t) : Within W s t := by
  obtain ⟨-, rfl⟩ := (s.cpx_ok t d).1 h
  exact ((setHl hhl.1 hhl.2 (s.hl + d)).trans (setBc hbc.1 hbc.2 (s.bc - 1))).trans (setF hf _)

/-- The passes of a repeating form write what one pass writes. -/
theorem blockLoop {body : State → Except Fault State} (hbody : ∀ u v, body u = .ok v → Within W u v)
    {done : State → Bool} {n : Nat} (h : blockLoop body done n s = .ok t) : Within W s t :=
  blockLoop_keeps (Within W s) body done (fun u v hu hv => hu.trans (hbody u v hv)) n s t refl h

/-- The CB dispatch on a register. -/
theorem cbOnReg {op : Byte} {r : Reg8} (hr : W (.reg r) = true) (hf : W .f = true) (h : s.cbOnReg op r = .next t) :
    Within W s t := by
  unfold State.cbOnReg at h
  split at h
  · cases h
    exact setF hf _
  · cases h
    exact setR8_setF hr hf _ _

/-- The CB dispatch on a memory byte. -/
theorem cbOnMem {op : Byte} {a : Word} (hm : W .mem = true) (hf : W .f = true) (h : s.cbOnMem op a = .next t) :
    Within W s t := by
  obtain ⟨hok, rfl⟩ := (s.cbOnMem_next t op a).1 h
  split
  · exact setF hf _
  · exact (putByte hm hok _).trans (setF hf _)

end Within

end Sys2Proof.Machine
end

section
/-! `exec_within`: every answer of `exec` differs from its start only in the footprint of the instruction and in PC. -/

namespace Sys2Proof.Machine

/-! ## The escape rows, which fetch before they dispatch (log 15) -/

theorem execCbEscape_next (s t : State) (h : execCbEscape s = .next t) :
    ∃ op, (∃ r, State.cbOnReg { s with pc := s.pc + 1 } op r = .next t) ∨
      State.cbOnMem { s with pc := s.pc + 1 } op s.hl = .next t := by
  unfold execCbEscape at h
  split at h
  · cases h
  · rename_i op u hu
    obtain ⟨-, -, rfl⟩ := (s.fetch8_ok u op).1 hu
    split at h
    · exact ⟨op, .inl ⟨_, h⟩⟩
    · exact ⟨op, .inr h⟩

theorem execCbEscapeIndexed_next (j : IdxReg) (s t : State) (h : execCbEscapeIndexed j s = .next t) :
    ∃ op a, State.cbOnMem { s with pc := s.pc + 1 + 1 } op a = .next t := by
  unfold execCbEscapeIndexed at h
  split at h
  · cases h
  · rename_i d u hu
    obtain ⟨-, -, rfl⟩ := (s.fetch8_ok u d).1 hu
    split at h
    · cases h
    · rename_i op v hv
      obtain ⟨-, -, rfl⟩ := (State.fetch8_ok _ v op).1 hv
      split at h
      · exact ⟨op, _, h⟩
      · cases h

/-- The rows of regime ed that do not fault (30_encoding.md R120). -/
def edRow : Instr → Bool
  | .adcHlRr _ | .sbcHlRr _ | .ldMemNnRr _ _ | .ldRrMemNn _ _ | .neg | .ldAI | .rrd | .rld | .ldi | .cpi | .ldd | .cpd
  | .ldir | .cpir | .lddr | .cpdr => true
  | _ => false

theorem State.withImm16_next (s t : State) (k : Word → State → Result) (h : s.withImm16 k = .next t) :
    ∃ nn, k nn { s with pc := s.pc + 2 } = .next t := by
  unfold State.withImm16 at h
  split at h
  · cases h
  · rename_i nn u hu
    obtain ⟨-, -, rfl⟩ := (s.fetch16_ok u nn).1 hu
    exact ⟨nn, h⟩

/-- What the ED dispatch answers, a row of its regime answers, with PC past the immediate. -/
theorem State.edDispatch_next (s t : State) (op : Byte) (h : s.edDispatch op = .next t) :
    ∃ i a, edRow i = true ∧ exec i { s with pc := a } = .next t := by
  unfold State.edDispatch at h
  extract_lets p at h
  obtain ⟨-, h⟩ | ⟨-, h⟩ := ite_eq_iff.1 h
  · exact ⟨.adcHlRr _, s.pc, rfl, h⟩
  obtain ⟨-, h⟩ | ⟨-, h⟩ := ite_eq_iff.1 h
  · exact ⟨.sbcHlRr _, s.pc, rfl, h⟩
  obtain ⟨-, h⟩ | ⟨-, h⟩ := ite_eq_iff.1 h
  · obtain ⟨nn, h⟩ := s.withImm16_next t _ h
    exact ⟨.ldMemNnRr _ nn, _, rfl, h⟩
  obtain ⟨-, h⟩ | ⟨-, h⟩ := ite_eq_iff.1 h
  · obtain ⟨nn, h⟩ := s.withImm16_next t _ h
    exact ⟨.ldRrMemNn _ nn, _, rfl, h⟩
  obtain ⟨-, h⟩ | ⟨-, h⟩ := ite_eq_iff.1 h
  · exact ⟨.neg, s.pc, rfl, h⟩
  obtain ⟨-, h⟩ | ⟨-, h⟩ := ite_eq_iff.1 h
  · exact ⟨.ldAI, s.pc, rfl, h⟩
  obtain ⟨-, h⟩ | ⟨-, h⟩ := ite_eq_iff.1 h
  · exact ⟨.rrd, s.pc, rfl, h⟩
  obtain ⟨-, h⟩ | ⟨-, h⟩ := ite_eq_iff.1 h
  · exact ⟨.rld, s.pc, rfl, h⟩
  obtain ⟨-, h⟩ | ⟨-, h⟩ := ite_eq_iff.1 h
  · exact ⟨.ldi, s.pc, rfl, h⟩
  obtain ⟨-, h⟩ | ⟨-, h⟩ := ite_eq_iff.1 h
  · exact ⟨.cpi, s.pc, rfl, h⟩
  obtain ⟨-, h⟩ | ⟨-, h⟩ := ite_eq_iff.1 h
  · exact ⟨.ldd, s.pc, rfl, h⟩
  obtain ⟨-, h⟩ | ⟨-, h⟩ := ite_eq_iff.1 h
  · exact ⟨.cpd, s.pc, rfl, h⟩
  obtain ⟨-, h⟩ | ⟨-, h⟩ := ite_eq_iff.1 h
  · exact ⟨.ldir, s.pc, rfl, h⟩
  obtain ⟨-, h⟩ | ⟨-, h⟩ := ite_eq_iff.1 h
  · exact ⟨.cpir, s.pc, rfl, h⟩
  obtain ⟨-, h⟩ | ⟨-, h⟩ := ite_eq_iff.1 h
  · exact ⟨.lddr, s.pc, rfl, h⟩
  obtain ⟨-, h⟩ | ⟨-, h⟩ := ite_eq_iff.1 h
  · exact ⟨.cpdr, s.pc, rfl, h⟩
  cases h

/-- The footprint of the ED escape holds those of the rows of its regime. -/
theorem mayWrite_edRow (i : Instr) (hi : edRow i = true) (p : Part) (hp : mayWrite .edEscape p = false) :
    mayWrite i p = false := by
  cases p with
  | f | reg | sp | mem => cases hp
  | idx | altAf | altRest | latch | running | io | system =>
    unfold edRow at hi
    split at hi
    case h_17 => cases hi
    all_goals rfl

/-! ## The footprint of every instruction -/

/-- The cases are grouped by the shared operation that the instruction's meaning is; each group cites the rule of
`Within` for that operation. -/
theorem exec_within_of_ne_edEscape (i : Instr) (s t : State) (hi : i ≠ .edEscape) (h : exec i s = .next t) :
    Within (mayWrite i) s t := by
  cases i with
  | edEscape => exact absurd rfl hi
  -- the rows that fault in every state
  | rstP | idxCbOther | edOther => cases h
  -- nothing but PC changes
  | nop | di | ei => cases h; exact .refl
  | jr | jpNn | jpHl | jpIx | prefixDiscarded => cases h; exact .setPc _
  | jrCc | jpCcNn =>
    obtain ⟨-, h⟩ | ⟨-, h⟩ := ite_eq_iff.1 h
    · cases h; exact .setPc _
    · cases h; exact .refl
  | djnz e =>
    have hb : Within (mayWrite (.djnz e)) s (s.setR8 .b (s.main.b - 1)) := .setR8 rfl _
    obtain ⟨-, h⟩ | ⟨-, h⟩ := ite_eq_iff.1 h
    · cases h; exact hb.trans (.setPc _)
    · cases h; exact hb
  -- the stop, the latch, the I/O port, the exchanges of registers
  | halt | rst0 => cases h; exact .setRunning rfl false
  | ddPrefix | fdPrefix => cases h; exact .setLatch rfl _
  | outNA => cases h; exact .setIo rfl _
  | inAN => cases h; exact (Within.setIo rfl _).trans (.setA rfl _)
  | exAfAf =>
    cases h
    refine ⟨fun p hp => ?_, id⟩
    cases p with
    | f | altAf => cases hp
    | reg r => cases r with | a => cases hp | _ => rfl
    | _ => rfl
  | exx =>
    cases h
    refine ⟨fun p hp => ?_, id⟩
    cases p with
    | altRest => cases hp
    | reg r => cases r with | a => rfl | _ => cases hp
    | _ => rfl
  | exDeHl => cases h; exact (Within.setDe rfl rfl _).trans (.setHl rfl rfl _)
  -- A, F or both
  | ldAI | rlca | rrca | rla | rra | daa | cpl | neg | addAR | addAN | addAIxHalf | adcAR | adcAN | adcAIxHalf | subR
  | subN | subIxHalf | sbcAR | sbcAN | sbcAIxHalf | andR | andN | andIxHalf | xorR | xorN | xorIxHalf | orR | orN
  | orIxHalf =>
    cases h
    exact .setA_setF rfl rfl _ _
  | addAMemHl | addAMemIx | adcAMemHl | adcAMemIx | subMemHl | subMemIx | sbcAMemHl | sbcAMemIx | andMemHl | andMemIx
  | xorMemHl | xorMemIx | orMemHl | orMemIx =>
    obtain ⟨-, rfl⟩ := (s.withByte_next t _ _).1 h
    exact .setA_setF rfl rfl _ _
  | scf | ccf | cpR | cpN | cpIxHalf | bitR => cases h; exact .setF rfl _
  | cpMemHl | cpMemIx | bitMemHl | bitMemIx =>
    obtain ⟨-, rfl⟩ := (s.withByte_next t _ _).1 h
    exact .setF rfl _
  | ldAMemBc | ldAMemDe | ldAMemNn =>
    obtain ⟨-, rfl⟩ := (s.withByte_next t _ _).1 h
    exact .setA rfl _
  -- the register that an operand names
  | ldRR | ldRN | resR | setR => cases h; exact .setR8 (decide_eq_true rfl) _
  | ldRMemHl | ldRMemIx =>
    obtain ⟨-, rfl⟩ := (s.withByte_next t _ _).1 h
    exact .setR8 (decide_eq_true rfl) _
  | incR | decR | rlcR | rrcR | rlR | rrR | slaR | sraR | sllR | srlR =>
    cases h
    exact .setR8_setF (decide_eq_true rfl) rfl _ _
  | ldXX j x =>
    cases h
    exact .setX x (fun _ hr => hr) (fun hx => by simp [mayWrite, writesIdx, hx]) _
  -- pairs and index registers
  | ldRrNn p | incRr p | decRr p => cases h; exact .setPair p (fun _ hr => hr) decide_eq_true _
  | ldRrMemNn p =>
    obtain ⟨-, rfl⟩ := (s.withWord_next t _ _).1 h
    exact .setPair p (fun _ hr => hr) decide_eq_true _
  | ldHlMemNn =>
    obtain ⟨-, rfl⟩ := (s.withWord_next t _ _).1 h
    exact .setHl rfl rfl _
  | addHlRr | adcHlRr | sbcHlRr => cases h; exact (Within.setHl rfl rfl _).trans (.setF rfl _)
  | ldIxNn | incIx | decIx => cases h; exact .setIx (decide_eq_true rfl) _
  | ldIxMemNn =>
    obtain ⟨-, rfl⟩ := (s.withWord_next t _ _).1 h
    exact .setIx (decide_eq_true rfl) _
  | addIxRr => cases h; exact (Within.setIx (decide_eq_true rfl) _).trans (.setF rfl _)
  | ldIxHalfN => cases h; exact .setHalf (decide_eq_true rfl) _ _
  | incIxHalf | decIxHalf => cases h; exact (Within.setHalf (decide_eq_true rfl) _ _).trans (.setF rfl _)
  | ldSpHl | ldSpIx => cases h; exact .setSp rfl _
  -- a store
  | ldMemBcA | ldMemDeA | ldMemNnA | ldMemHlN | ldMemHlR | ldMemIxN | ldMemIxR =>
    obtain ⟨hok, rfl⟩ := (s.storeByte_next t _ _).1 h
    exact .putByte rfl hok _
  | ldMemNnHl | ldMemNnIx | ldMemNnRr =>
    obtain ⟨hok, rfl⟩ := (s.storeWord_next t _ _).1 h
    exact .putWord rfl hok _ _
  -- a memory byte replaced; RES and SET give F back its own value
  | incMemHl | incMemIx | decMemHl | decMemIx | rlcMemHl | rlcMemIx | rrcMemHl | rrcMemIx | rlMemHl | rlMemIx
  | rrMemHl | rrMemIx | slaMemHl | slaMemIx | sraMemHl | sraMemIx | sllMemHl | sllMemIx | srlMemHl | srlMemIx =>
    obtain ⟨hok, rfl⟩ := (s.modifyByte_next t _ _ _).1 h
    exact (Within.putByte rfl hok _).trans (.setF rfl _)
  | resMemHl | resMemIx | setMemHl | setMemIx =>
    obtain ⟨hok, rfl⟩ := (s.modifyByte_next t _ _ _).1 h
    exact .putByte rfl hok _
  | rld | rrd =>
    obtain ⟨hok, rfl⟩ := (s.rotDec_next t _).1 h
    exact (Within.putByte rfl hok _).trans (.setA_setF rfl rfl _ _)
  -- the stack, calls and returns
  | pushQq | pushIx => exact .push16 rfl rfl ((toResult_next _ t).1 h)
  | popQq q =>
    obtain ⟨-, rfl⟩ := (execPopQq_next q s t).1 h
    exact (Within.setSp rfl (s.sp + 2)).trans (.setPairQ q (fun _ hr => hr) decide_eq_true _)
  | popIx j =>
    obtain ⟨-, rfl⟩ := (execPopIx_next j s t).1 h
    exact (Within.setSp rfl (s.sp + 2)).trans (.setIx (decide_eq_true rfl) _)
  | exMemSpHl =>
    obtain ⟨hok, rfl⟩ := (execExMemSpHl_next s t).1 h
    exact (Within.putWord rfl hok _ _).trans (.setHl rfl rfl _)
  | exMemSpIx j =>
    obtain ⟨hok, rfl⟩ := (execExMemSpIx_next j s t).1 h
    exact (Within.putWord rfl hok _ _).trans (.setIx (decide_eq_true rfl) _)
  | callNn => exact .call rfl rfl h
  | callCcNn =>
    obtain ⟨-, h⟩ | ⟨-, h⟩ := ite_eq_iff.1 h
    · exact .call rfl rfl h
    · cases h; exact .refl
  | ret => exact .doRet rfl rfl h
  | retCc =>
    obtain ⟨-, h⟩ | ⟨-, h⟩ := ite_eq_iff.1 h
    · exact .doRet rfl rfl h
    · cases h; exact .refl
  -- block transfer and search
  | ldi | ldd => exact .ldx rfl rfl (fun _ hr => hr) ((toResult_next _ t).1 h)
  | ldir | lddr =>
    exact .blockLoop (fun _ _ hb => .ldx rfl rfl (fun _ hr => hr) hb) ((toResult_next _ t).1 h)
  | cpi | cpd => exact .cpx rfl ⟨rfl, rfl⟩ ⟨rfl, rfl⟩ ((toResult_next _ t).1 h)
  | cpir | cpdr =>
    exact .blockLoop (fun _ _ hb => .cpx rfl ⟨rfl, rfl⟩ ⟨rfl, rfl⟩ hb) ((toResult_next _ t).1 h)
  -- the CB escapes
  | cbEscape =>
    obtain ⟨op, ⟨r, hr⟩ | hm⟩ := execCbEscape_next s t h
    · exact (Within.setPc _).trans (.cbOnReg rfl rfl hr)
    · exact (Within.setPc _).trans (.cbOnMem rfl rfl hm)
  | cbEscapeIndexed j =>
    obtain ⟨op, a, hm⟩ := execCbEscapeIndexed_next j s t h
    exact (Within.setPc _).trans (.cbOnMem rfl rfl hm)

/-- An answer of `exec` differs from its start only in the parts that the instruction may write and in PC, and it keeps
memory legal. -/
theorem exec_within (i : Instr) (s t : State) (h : exec i s = .next t) : Within (mayWrite i) s t := by
  by_cases hi : i = .edEscape
  · subst hi
    simp only [exec_edEscape, execEdEscape] at h
    split at h
    · cases h
    · rename_i op u hu
      obtain ⟨-, -, rfl⟩ := (s.fetch8_ok u op).1 hu
      obtain ⟨i, a, hrow, hex⟩ := State.edDispatch_next _ t op h
      have hne : i ≠ .edEscape := by rintro rfl; cases hrow
      exact (Within.setPc a).trans ((exec_within_of_ne_edEscape i _ t hne hex).mono (mayWrite_edRow i hrow))
  · exact exec_within_of_ne_edEscape i s t hi h

end Sys2Proof.Machine
end

section
/-! The frames of the whole machine (10_state.md R20 to R27, R33, R36, R37), read off `exec_within`. -/

namespace Sys2Proof.Machine

theorem writesRunning_iff (i : Instr) :
    writesRunning i = true ↔ i = .halt ∨ i = .rst0 ∨ i = .ret ∨ ∃ cc, i = .retCc cc := by
  unfold writesRunning
  split <;> simp_all

theorem writesLatch_eq_false (i : Instr) (hdd : i ≠ .ddPrefix) (hfd : i ≠ .fdPrefix) : writesLatch i = false := by
  unfold writesLatch
  split
  · exact absurd rfl hdd
  · exact absurd rfl hfd
  · rfl

theorem writesIo_eq_false (i : Instr) (hin : ∀ n, i ≠ .inAN n) (hout : ∀ n, i ≠ .outNA n) : writesIo i = false := by
  unfold writesIo
  split
  · exact absurd rfl (hin _)
  · exact absurd rfl (hout _)
  · rfl

theorem writesAltAf_eq_false (i : Instr) (h : i ≠ .exAfAf) : writesAltAf i = false := by
  unfold writesAltAf
  split
  · exact absurd rfl h
  · rfl

theorem writesAltRest_eq_false (i : Instr) (h : i ≠ .exx) : writesAltRest i = false := by
  unfold writesAltRest
  split
  · exact absurd rfl h
  · rfl

/-- A taken return clears `running` only when it pops `0x0000`, and never sets it (47_control_flow.md R350). -/
theorem State.doRet_running (s t : State) (h : s.doRet = .next t) :
    (s.running = true → t.running = false → t.pc = 0x0000) ∧ (t.running = true → s.running = true) := by
  obtain ⟨-, rfl⟩ := (s.doRet_next t).1 h
  by_cases hv : s.wordAt s.sp = 0x0000
  · exact ⟨fun _ _ => hv, fun ht => by simp [hv] at ht⟩
  · have hrun : s.running = if s.wordAt s.sp = 0x0000 then false else s.running := (if_neg hv).symm
    exact ⟨fun hs ht => absurd (hrun.trans ht) (by simp [hs]), fun ht => hrun.trans ht⟩

/-- Settles O18: outside the rows that can stop, `running` is no part of the footprint; those rows are looked at one by
one. -/
theorem onlyStopsClearRunning : Obligations.OnlyStopsClearRunning := by
  intro i s t h
  by_cases hw : writesRunning i = true
  · obtain rfl | rfl | rfl | ⟨cc, rfl⟩ := (writesRunning_iff i).1 hw
    · cases h
      exact ⟨fun _ _ => .inl rfl, nofun⟩
    · cases h
      exact ⟨fun _ _ => .inr (.inl rfl), nofun⟩
    · obtain ⟨hpc, hset⟩ := s.doRet_running t h
      exact ⟨fun hs ht => .inr (.inr ⟨.inl rfl, hpc hs ht⟩), hset⟩
    · obtain ⟨hc, h⟩ | ⟨-, h⟩ := ite_eq_iff.1 h
      · obtain ⟨hpc, hset⟩ := s.doRet_running t h
        exact ⟨fun hs ht => .inr (.inr ⟨.inr ⟨cc, rfl, hc⟩, hpc hs ht⟩), hset⟩
      · cases h
        exact ⟨fun hs ht => absurd hs (by simp [ht]), id⟩
  · have hrun : t.running = s.running := (exec_within i s t h).part .running (by simpa [mayWrite] using hw)
    exact ⟨fun hs ht => absurd hs (by simp [← hrun, ht]), fun ht => hrun ▸ ht⟩

/-- Settles O19. -/
theorem onlyExchangesTouchAlternates : Obligations.OnlyExchangesTouchAlternates := by
  intro i s t h
  have hw := exec_within i s t h
  constructor
  · intro hi
    simpa [State.part] using hw.part .altAf (writesAltAf_eq_false i hi)
  · intro hi
    simpa [State.part] using hw.part .altRest (writesAltRest_eq_false i hi)

/-- Settles O20. -/
theorem onlyListedInstructionsWriteF : Obligations.OnlyListedInstructionsWriteF :=
  fun i s t hi h => (exec_within i s t h).part .f hi

/-- Settles O21. -/
theorem onlyDestinationsChange : Obligations.OnlyDestinationsChange :=
  fun i r s t hi h => (exec_within i s t h).part (.reg r) hi

/-- Settles O22. -/
theorem onlyListedInstructionsWriteSpAndIndex : Obligations.OnlyListedInstructionsWriteSpAndIndex :=
  fun i s t h => ⟨(exec_within i s t h).part .sp, fun j => (exec_within i s t h).part (.idx j)⟩

/-- I, R, `starting` and the parameters after any instruction (10_state.md R27, R37, 00_scope.md R7). -/
theorem exec_system (i : Instr) (s t : State) (h : exec i s = .next t) :
    t.i = s.i ∧ t.r = s.r ∧ t.starting = s.starting ∧ t.cfg = s.cfg := by
  simpa [State.part] using (exec_within i s t h).part .system rfl

/-- Settles O25. -/
theorem systemStateIsKept : Obligations.SystemStateIsKept := by
  intro i s t h
  have hw := exec_within i s t h
  obtain ⟨hi, hr, hst, hcfg⟩ := exec_system i s t h
  exact ⟨hi, hr, hst, hcfg, fun hdd hfd => hw.part .latch (writesLatch_eq_false i hdd hfd),
    fun hin hout => hw.part .io (writesIo_eq_false i hin hout)⟩

end Sys2Proof.Machine
end

section
/-! The invariant of every step (10_state.md R27, R35, 20_memory.md R60): no step runs a row that sets the
latch, and `exec_within` keeps the rest. -/

namespace Sys2Proof.Machine

/-! ## What a `Parse` can end in -/

/-- Every instruction that a `Parse` can end in meets `P`. -/
def ParseAll (P : Instr → Prop) : Parse → Prop
  | .done i => P i
  | .byte k => ∀ b, ParseAll P (k b)
  | .word k => ∀ w, ParseAll P (k w)

/-- What is fetched is one of the instructions that the `Parse` can end in. -/
theorem fetchParse_all {P : Instr → Prop} : ∀ (p : Parse) (s t : State) (i : Instr), ParseAll P p →
    fetchParse p s = .ok (i, t) → P i
  | .done _, _, _, _, hp, h => by cases h; exact hp
  | .byte k, s, t, i, hp, h => by
    simp only [fetchParse] at h
    split at h
    · cases h
    · exact fetchParse_all (k _) _ t i (hp _) h
  | .word k, s, t, i, hp, h => by
    simp only [fetchParse] at h
    split at h
    · cases h
    · exact fetchParse_all (k _) _ t i (hp _) h

@[simp] theorem parseAll_done (P : Instr → Prop) (i : Instr) : ParseAll P (.done i) ↔ P i := Iff.rfl
@[simp] theorem parseAll_byte (P : Instr → Prop) (k : Byte → Parse) : ParseAll P (.byte k) ↔ ∀ b, ParseAll P (k b) :=
  Iff.rfl
@[simp] theorem parseAll_word (P : Instr → Prop) (k : Word → Parse) : ParseAll P (.word k) ↔ ∀ w, ParseAll P (k w) :=
  Iff.rfl

/-! ## Past the `DD` and `FD` bytes the decoder gives no row that sets the latch (40_instruction_cycle.md R134) -/

/-- An instruction that leaves the latch alone. -/
def KeepsLatch (i : Instr) : Prop := writesLatch i = false

theorem keepsLatch_of_ne (i : Instr) (hdd : i ≠ .ddPrefix) (hfd : i ≠ .fdPrefix) : KeepsLatch i :=
  writesLatch_eq_false i hdd hfd

theorem decodeAlu_keepsLatch (y : Nat) (o : Option Reg8) : KeepsLatch (decodeAlu y o) := by
  unfold decodeAlu
  split <;> split <;> rfl

theorem decodeAluN_keepsLatch (y : Nat) (n : Byte) : KeepsLatch (decodeAluN y n) := by
  unfold decodeAluN
  split <;> rfl

theorem decodeAluHalf_keepsLatch (y : Nat) (j : IdxReg) (h : Half) : KeepsLatch (decodeAluHalf y j h) := by
  unfold decodeAluHalf
  split <;> rfl

theorem decodeAluMemIx_keepsLatch (y : Nat) (j : IdxReg) (d : Byte) : KeepsLatch (decodeAluMemIx y j d) := by
  unfold decodeAluMemIx
  split <;> rfl

theorem decodeCb_keepsLatch (op : Byte) : KeepsLatch (decodeCb op) := by
  simp only [decodeCb]
  split
  · split <;> rfl
  · split <;> rfl
  all_goals rfl

theorem decodeIdxCb_keepsLatch (j : IdxReg) (d op : Byte) : KeepsLatch (decodeIdxCb j d op) := by
  unfold decodeIdxCb
  split
  · split
    · split <;> rfl
    all_goals rfl
  · rfl

theorem decodeEd_keepsLatch (op : Byte) : ParseAll KeepsLatch (decodeEd op) := by
  unfold decodeEd
  extract_lets p
  repeat' apply iteInduction <;> intro _
  all_goals simp [keepsLatch_of_ne]

theorem decodeMain0_keepsLatch (op : Byte) : ParseAll KeepsLatch (decodeMain0 op) := by
  simp only [decodeMain0]
  repeat' split
  all_goals simp [keepsLatch_of_ne]

/-- The only opcode bytes that the main map reads as rows that set the latch. -/
theorem eq_prefix_of_fields (op : Byte) (hx : fieldX op ≠ 0 ∧ fieldX op ≠ 1 ∧ fieldX op ≠ 2) (hz : fieldZ op = 5)
    (hq : fieldQ op ≠ 0) (hp : fieldP op ≠ 0 ∧ fieldP op ≠ 2) : op = 0xDD ∨ op = 0xFD := by
  revert op
  decide

theorem decodeMain3_keepsLatch (op : Byte) (hdd : op ≠ 0xDD) (hfd : op ≠ 0xFD)
    (hx : fieldX op ≠ 0 ∧ fieldX op ≠ 1 ∧ fieldX op ≠ 2) : ParseAll KeepsLatch (decodeMain3 op) := by
  simp only [decodeMain3]
  split
  case h_6 hz =>
    split
    · simp [keepsLatch_of_ne]
    · rename_i hq
      have hp : fieldP op = 0 ∨ fieldP op = 2 := by
        by_contra hp
        exact (eq_prefix_of_fields op hx hz hq (not_or.1 hp)).elim hdd hfd
      obtain hp | hp := hp <;> simp [hp, keepsLatch_of_ne, decodeEd_keepsLatch]
  all_goals repeat' split
  all_goals simp [keepsLatch_of_ne, decodeCb_keepsLatch, decodeAluN_keepsLatch]

theorem decodeMain_keepsLatch (op : Byte) (hdd : op ≠ 0xDD) (hfd : op ≠ 0xFD) :
    ParseAll KeepsLatch (decodeMain op) := by
  unfold decodeMain
  split
  · simp [keepsLatch_of_ne]
  · split
    · exact decodeMain0_keepsLatch op
    · split <;> simp [keepsLatch_of_ne]
    · exact decodeAlu_keepsLatch _ _
    · rename_i h0 h1 h2
      exact decodeMain3_keepsLatch op hdd hfd ⟨h0, h1, h2⟩

theorem decodeIdx0_keepsLatch (j : IdxReg) (op : Byte) : ParseAll KeepsLatch (decodeIdx0 j op) := by
  simp only [decodeIdx0]
  repeat' split
  all_goals simp [keepsLatch_of_ne]

theorem decodeIdx_keepsLatch (j : IdxReg) (op : Byte) : ParseAll KeepsLatch (decodeIdx j op) := by
  unfold decodeIdx
  split
  · simp [keepsLatch_of_ne]
  · split
    · exact decodeIdx0_keepsLatch j op
    · repeat' split
      all_goals simp [keepsLatch_of_ne]
    · split
      · simp [decodeAluMemIx_keepsLatch]
      · exact decodeAluHalf_keepsLatch _ _ _
    · repeat' split
      all_goals simp [keepsLatch_of_ne, decodeIdxCb_keepsLatch]

theorem decodeOpcode_keepsLatch (x : Latch) (op : Byte) (hdd : op ≠ 0xDD) (hfd : op ≠ 0xFD) :
    ParseAll KeepsLatch (decodeOpcode x op) := by
  cases x with
  | none => exact decodeMain_keepsLatch op hdd hfd
  | dd => exact decodeIdx_keepsLatch .ix op
  | fd => exact decodeIdx_keepsLatch .iy op

/-- No fetch answers a row that sets the latch: such bytes are absorbed before the opcode byte is decoded. -/
theorem fetchInstr_keepsLatch (s t : State) (i : Instr) (h : fetchInstr s = .ok (i, t)) : KeepsLatch i := by
  unfold fetchInstr at h
  split at h
  · cases h
  · rename_i op u hu
    split at h
    · cases h
    · rename_i i' v hv
      obtain ⟨-, hdd, hfd⟩ := absorb_frame _ _ _ _ hu
      cases h
      exact fetchParse_all _ u v i (decodeOpcode_keepsLatch _ op hdd hfd) hv

/-! ## The invariant -/

/-- The operation of an instruction that leaves the latch alone keeps the invariant. -/
theorem exec_keeps_inv (i : Instr) (s t : State) (hl : KeepsLatch i) (hs : s.Inv) (h : exec i s = .next t) :
    t.Inv := by
  obtain ⟨hcfg, hwf, hin, hlatch, hi, hr⟩ := hs
  have hw := exec_within i s t h
  obtain ⟨hi', hr', -, hcfg'⟩ := exec_system i s t h
  obtain ⟨hwf', hin'⟩ := hw.memOk ⟨hwf, hin⟩
  have hlatch' : t.latch = s.latch := hw.part .latch hl
  exact ⟨hcfg' ▸ hcfg, hwf', hin', hlatch'.trans hlatch, hi'.trans hi, hr'.trans hr⟩

/-- Settles O3: the termination check and the fetch leave what the invariant speaks of, and so does the operation. -/
theorem stepKeepsInvariant : Obligations.StepKeepsInvariant := by
  intro s t hs h
  obtain ⟨-, ⟨-, rfl⟩ | ⟨-, i, u, hf, hex⟩⟩ := step_cases s t h
  · exact hs
  · have hu : u.Inv := by
      rw [fetchInstr_frame _ u i hf]
      obtain ⟨hcfg, hwf, hin, -, hi, hr⟩ := hs
      exact ⟨hcfg, hwf, hin, rfl, hi, hr⟩
    exact exec_keeps_inv i u t (fetchInstr_keepsLatch _ u i hf) hu hex

end Sys2Proof.Machine
end

section
/-! Register views and algebraic laws (10_state.md R22, R42). -/

namespace Sys2Proof.Machine

/-! ## The views (10_state.md R22) -/

theorem joinBytes_toNat (lo hi : Byte) : (joinBytes lo hi).toNat = hi.toNat * 256 + lo.toNat := by
  have hlo : lo.toNat < 2 ^ 8 := lo.isLt
  rw [joinBytes, BitVec.toNat_append, ← Nat.shiftLeft_add_eq_or_of_lt hlo, Nat.shiftLeft_eq]

theorem State.getIx_eq_joinBytes (s : State) (j : IdxReg) : s.getIx j = joinBytes (s.getHalf j .lo) (s.getHalf j .hi) :=
  (joinBytes_lo_hi _).symm

theorem State.setHalf_getIx_other (s : State) (j k : IdxReg) (h : Half) (v : Byte) (hk : k ≠ j) :
    (s.setHalf j h v).getIx k = s.getIx k := by
  cases h <;> exact s.setIx_getIx_other j k _ hk

/-- Settles O5: each view is `joinBytes` of its halves, and each write has its own laws. -/
theorem registerViews : Obligations.RegisterViews := by
  intro s
  refine ⟨joinBytes_toNat _ _, joinBytes_toNat _ _, joinBytes_toNat _ _, joinBytes_toNat _ _, fun j => ?_,
    fun q v => ⟨s.setPairQ_getPairQ q v, fun p hp => s.setPairQ_getPairQ_other q p v hp, ?_⟩,
    fun r v => ⟨s.setR8_getR8 r v, fun q hq => s.setR8_getR8_other r q v hq, s.setR8_f r v, ?_⟩,
    fun v => ⟨rfl, fun r => s.setF_getR8 r v, rfl⟩,
    fun j v => ⟨s.setIx_getIx j v, fun k hk => s.setIx_getIx_other j k v hk, ?_⟩,
    fun j h v => ⟨s.setHalf_getHalf j h v, fun g hg => s.setHalf_getHalf_other j h g v hg,
      fun k hk => s.setHalf_getIx_other j k h v hk, ?_⟩⟩
  · rw [s.getIx_eq_joinBytes j, joinBytes_toNat]
  · cases q <;> rfl
  · cases r <;> rfl
  · cases j <;> rfl
  · cases h <;> cases j <;> rfl

/-! ## The laws (10_state.md R42) -/

/-- After a push the word at SP is the one pushed, and a pop brings SP back. -/
theorem State.push16_then_pop (s t : State) (v : Word) (hw : s.mem.wf = true) (h : s.push16 v = .ok t) :
    t.wordOk t.sp = true ∧ t.wordAt t.sp = v ∧ t.sp + 2 = s.sp := by
  have hst := State.memWrite16_stores _ t _ v (by exact hw) h
  obtain ⟨hok, rfl⟩ := (s.push16_ok t v).1 h
  obtain ⟨-, hlo, hhi, -⟩ := hst
  refine ⟨hok, ?_, BitVec.sub_add_cancel _ _⟩
  rw [State.wordAt, hlo, hhi, joinBytes_lo_hi]

/-- POP qq after a push. -/
theorem execPopQq_push16 (q : PairQ) (s t : State) (v : Word) (hw : s.mem.wf = true) (h : s.push16 v = .ok t) :
    ∃ u, exec (.popQq q) t = .next u ∧ u.getPairQ q = v ∧ u.sp = s.sp := by
  obtain ⟨hok, hv, hsp⟩ := s.push16_then_pop t v hw h
  refine ⟨_, (execPopQq_next q t _).2 ⟨hok, rfl⟩, ?_, ?_⟩
  · rw [State.setPairQ_getPairQ, hv]
  · rw [State.setPairQ_sp, hsp]

/-- POP IX or IY after a push. -/
theorem execPopIx_push16 (j : IdxReg) (s t : State) (v : Word) (hw : s.mem.wf = true) (h : s.push16 v = .ok t) :
    ∃ u, exec (.popIx j) t = .next u ∧ u.getIx j = v ∧ u.sp = s.sp := by
  obtain ⟨hok, hv, hsp⟩ := s.push16_then_pop t v hw h
  refine ⟨_, (execPopIx_next j t _).2 ⟨hok, rfl⟩, ?_, ?_⟩
  · rw [State.setIx_getIx, hv]
  · rw [State.setIx_sp, hsp]

theorem cplFlags_h (f new : Byte) : (cplFlags f new).getLsbD 4 = true := by
  simp [cplFlags, hMask, nMask]

theorem cplFlags_n (f new : Byte) : (cplFlags f new).getLsbD 1 = true := by
  simp [cplFlags, hMask, nMask]

/-- Settles O34. -/
theorem algebraicLaws : Obligations.AlgebraicLaws := by
  intro s hw
  refine ⟨⟨_, rfl, rfl⟩, ⟨_, rfl, rfl⟩,
    fun q q' t h => execPopQq_push16 q' s t _ hw ((toResult_next _ t).1 h),
    fun j j' t h => execPopIx_push16 j' s t _ hw ((toResult_next _ t).1 h),
    fun q j t h => execPopIx_push16 j s t _ hw ((toResult_next _ t).1 h),
    fun j q t h => execPopQq_push16 q s t _ hw ((toResult_next _ t).1 h),
    _, _, rfl, rfl, ?_, cplFlags_h _ _, cplFlags_n _ _, cplFlags_h _ _, cplFlags_n _ _⟩
  change s.main.a ^^^ 0xFF ^^^ 0xFF = s.main.a
  rw [BitVec.xor_assoc, BitVec.xor_self, BitVec.xor_zero]

end Sys2Proof.Machine
end

section
/-! Memory: byte and word accesses, the host's bulk load, and the instructions that store nothing (20_memory.md). -/

namespace Sys2Proof

theorem loByte_toNat (w : Word) : (loByte w).toNat = w.toNat % 256 := by
  simp [loByte]

theorem hiByte_toNat (w : Word) : (hiByte w).toNat = w.toNat / 256 := by
  have hw : w.toNat < 2 ^ 16 := w.isLt
  rw [hiByte, BitVec.extractLsb'_toNat, Nat.shiftRight_eq_div_pow]
  omega

end Sys2Proof

namespace Sys2Proof.Machine

/-! ## Accesses outside memory (decision D3) -/

theorem State.memRead8_eq_error (s : State) (a : Word) (h : ¬ a.toNat < s.cfg.ramSize) :
    s.memRead8 a = .error (.memoryOutOfRange a) :=
  if_neg (mt (s.byteOk_iff a).1 h)

theorem State.memWrite8_eq_error (s : State) (a : Word) (v : Byte) (h : ¬ a.toNat < s.cfg.ramSize) :
    s.memWrite8 a v = .error (.memoryOutOfRange a) :=
  if_neg (mt (s.byteOk_iff a).1 h)

theorem State.memRead16_eq_error (s : State) (a : Word) (h : ¬ s.WordInside a) :
    s.memRead16 a = .error (.memoryOutOfRange a) :=
  if_neg (mt (s.wordOk_iff a).1 h)

theorem State.memWrite16_eq_error (s : State) (a v : Word) (h : ¬ s.WordInside a) :
    s.memWrite16 a v = .error (.memoryOutOfRange a) :=
  if_neg (mt (s.wordOk_iff a).1 h)

/-! ## A read after a write -/

/-- A byte read depends on the parameters and on that byte only. -/
theorem State.memRead8_congr {s t : State} {b : Word} (hcfg : t.cfg = s.cfg) (hb : t.byteAt b = s.byteAt b) :
    t.memRead8 b = s.memRead8 b := by
  have hok : t.byteOk b = s.byteOk b := by rw [State.byteOk, State.byteOk, hcfg]
  rw [State.memRead8, State.memRead8, hok, hb]

/-- Settles O6: what a write does is `StoresByte`, and a read sees only its own byte. -/
theorem byteMemory : Obligations.ByteMemory := by
  intro s a v hw
  split
  case isTrue ha =>
    have hok : s.byteOk a = true := (s.byteOk_iff a).2 ha
    have ht := (s.memWrite8_ok a v _).2 ⟨hok, rfl⟩
    obtain ⟨hframe, hv, hother⟩ := s.memWrite8_stores _ a v hw ht
    exact ⟨s.memRead8_eq a hok, _, ht, hframe, (State.memRead8_ok _ a v).2 ⟨hok, hv.symm⟩,
      fun b hb => State.memRead8_congr rfl (hother b hb)⟩
  case isFalse ha => exact ⟨s.memRead8_eq_error a ha, s.memWrite8_eq_error a v ha⟩

/-- The little-endian value of a word of memory (20_memory.md R64). -/
theorem State.wordAt_eq_ofNat (s : State) (a : Word) :
    s.wordAt a = BitVec.ofNat 16 ((s.byteAt a).toNat + 256 * (s.byteAt (a + 1)).toNat) := by
  have hval : (s.wordAt a).toNat = (s.byteAt a).toNat + 256 * (s.byteAt (a + 1)).toNat := by
    rw [State.wordAt, joinBytes_toNat, Nat.add_comm, Nat.mul_comm]
  rw [← hval, BitVec.ofNat_toNat, BitVec.setWidth_eq]

/-- A word stored is the word that memory holds there. -/
theorem StoresWord.wordAt_eq {s t : State} {a v : Word} (h : StoresWord s t a v) : t.wordAt a = v := by
  obtain ⟨-, hlo, hhi, -⟩ := h
  rw [State.wordAt, hlo, hhi, joinBytes_lo_hi]

/-- The word written is the word read. -/
theorem State.memRead16_of_memWrite16 (s t : State) (a v : Word) (hw : s.mem.wf = true)
    (h : s.memWrite16 a v = .ok t) : t.memRead16 a = .ok v := by
  have hv : t.wordAt a = v := (s.memWrite16_stores t a v hw h).wordAt_eq
  obtain ⟨hok, rfl⟩ := (s.memWrite16_ok a v t).1 h
  exact (State.memRead16_ok _ a v).2 ⟨hok, hv.symm⟩

/-- Settles O7: what a word write does is `StoresWord`, and its two bytes are the halves of the word. -/
theorem wordMemory : Obligations.WordMemory := by
  intro s a v hw
  refine ⟨fun ha => ?_, fun ha => ⟨s.memRead16_eq_error a ha, s.memWrite16_eq_error a v ha⟩⟩
  have hok : s.wordOk a = true := (s.wordOk_iff a).2 ha
  have ht := (s.memWrite16_ok a v _).2 ⟨hok, rfl⟩
  obtain ⟨hframe, hlo, hhi, hother⟩ := s.memWrite16_stores _ a v hw ht
  refine ⟨?_, _, ht, hframe, ?_, ?_, s.memRead16_of_memWrite16 _ a v hw ht,
    fun b hb hb' => State.memRead8_congr rfl (hother b hb hb')⟩
  · rw [s.memRead16_eq a hok, s.wordAt_eq_ofNat]
  · rw [hlo, loByte_toNat]
  · rw [hhi, hiByte_toNat]

/-! ## The bulk load (R83) -/

/-- A run of bytes leaves every address outside it alone. -/
theorem Memory.get_putBytes_outside (m : Memory) (a b : Nat) (bytes : List Byte) (hw : m.wf = true)
    (hb : b < a ∨ a + bytes.length ≤ b) : (m.putBytes a bytes).get b = m.get b := by
  induction bytes generalizing m a with
  | nil => rfl
  | cons v rest ih =>
    rw [List.length_cons] at hb
    rw [Memory.putBytes, ih _ _ (Memory.put_wf m a v hw) (by omega), Memory.get_put_other m a b v hw (by omega)]

/-- Each byte of the run is read back where it was written: no later byte lands on an earlier one. -/
theorem Memory.get_putBytes_inside (m : Memory) (a : Nat) (bytes : List Byte) (hw : m.wf = true) (k : Nat)
    (h : k < bytes.length) : (m.putBytes a bytes).get (a + k) = bytes[k] := by
  induction bytes generalizing m a k with
  | nil => cases h
  | cons v rest ih =>
    have hw' := Memory.put_wf m a v hw
    cases k with
    | zero => exact (Memory.get_putBytes_outside _ _ _ rest hw' (by omega)).trans (m.get_put_same a v hw)
    | succ k =>
      have haddr : a + (k + 1) = a + 1 + k := by omega
      rw [Memory.putBytes, haddr]
      exact ih _ _ hw' k (Nat.lt_of_succ_lt_succ h)

theorem State.hostLoad_eq_some (s : State) (offset : Nat) (bytes : List Byte)
    (h : s.starting = true ∧ offset + bytes.length ≤ s.cfg.ramSize) :
    s.hostLoad offset bytes = some { s with mem := s.mem.putBytes offset bytes } :=
  if_pos (by simpa using h)

theorem State.hostLoad_eq_none (s : State) (offset : Nat) (bytes : List Byte)
    (h : ¬ (s.starting = true ∧ offset + bytes.length ≤ s.cfg.ramSize)) : s.hostLoad offset bytes = none :=
  if_neg (by simpa using h)

/-- Settles O4: a load that is accepted is `putBytes`. -/
theorem hostLoadAndStop : Obligations.HostLoadAndStop := by
  intro s offset bytes hw
  refine ⟨fun h => ?_, s.hostLoad_eq_none offset bytes, rfl⟩
  exact ⟨_, s.hostLoad_eq_some offset bytes h, rfl, Memory.putBytes_wf _ _ _ hw,
    Memory.get_putBytes_inside _ _ _ hw, fun a => Memory.get_putBytes_outside _ _ _ _ hw⟩

/-! ## No other writer (R68, R74) -/

/-- Settles O23: memory is in the footprint of an instruction only when `writesMemory` lists it. -/
theorem onlyStoresWriteMemory : Obligations.OnlyStoresWriteMemory :=
  fun i s t hi h => (exec_within i s t h).part .mem hi

end Sys2Proof.Machine
end

section
/-! Fetches at PC and address arithmetic (30_encoding.md R100 to R103). -/

namespace Sys2Proof.Machine

/-- Adding a sign-extended byte to an address, in integers (30_encoding.md R102, R103). -/
theorem toNat_add_sext (w : Word) (e : Byte) : ((w + sext e).toNat : Int) = (w.toNat + e.toInt) % 65536 := by
  have hsext : (sext e).toInt = e.toInt := BitVec.toInt_signExtend_of_le (by decide)
  have hs : ((sext e).toNat : Int) % 65536 = e.toInt % 65536 := by
    rw [← hsext, BitVec.toInt_eq_toNat_bmod]
    exact (Int.bmod_emod).symm
  rw [BitVec.toNat_add]
  omega

/-- Settles O9: JR, JR cc and DJNZ all add the offset by `jumpRel`, and DJNZ moves PC only when it transfers. -/
theorem addressArithmetic : Obligations.AddressArithmetic := by
  intro s e
  refine ⟨fun j => toNat_add_sext _ e, ⟨_, rfl, toNat_add_sext _ e⟩,
    fun cc hcc => ⟨_, if_pos hcc, toNat_add_sext _ e⟩, ?_⟩
  by_cases hb : s.main.b - 1 ≠ 0
  · exact ⟨_, if_pos hb, fun _ => toNat_add_sext _ e⟩
  · exact ⟨_, if_neg hb, fun hpc => absurd rfl hpc⟩

theorem State.fetch8_eq_error (s : State) (h : ¬ s.pc.toNat < s.cfg.ramSize) :
    s.fetch8 = .error (.memoryOutOfRange s.pc) := by
  rw [State.fetch8, s.memRead8_eq_error s.pc h]

theorem State.fetch16_eq_error (s : State) (h : ¬ s.WordInside s.pc) :
    s.fetch16 = .error (.memoryOutOfRange s.pc) := by
  rw [State.fetch16, s.memRead16_eq_error s.pc h]

/-- Settles O8: inside memory by what a fetch answers, outside by the fault of the read. -/
theorem fetchByteAndWord : Obligations.FetchByteAndWord := by
  intro s
  constructor
  · split
    case isTrue h =>
      exact ⟨_, (s.fetch8_ok _ _).2 ⟨(s.byteOk_iff s.pc).2 h, rfl, rfl⟩, rfl, BitVec.toNat_add _ _⟩
    case isFalse h => exact s.fetch8_eq_error h
  · split
    case isTrue h =>
      exact ⟨_, (s.fetch16_ok _ _).2 ⟨(s.wordOk_iff s.pc).2 h, rfl, rfl⟩, rfl, BitVec.toNat_add _ _⟩
    case isFalse h => exact s.fetch16_eq_error h

end Sys2Proof.Machine
end

section
/-! The decoder run on the encoder's bytes (30_encoding.md R105 to R124). -/

namespace Sys2Proof

open Machine

/-- A 16-bit operand comes back from its two bytes (R101). -/
theorem ok_joinBytes (f : Word → Instr) (nn : Word) (rest : List Byte) :
    (.ok (f (joinBytes (loByte nn) (hiByte nn)), rest) : Except Reject (Instr × List Byte)) = .ok (f nn, rest) := by
  rw [joinBytes_lo_hi]

/-! ## Bit numbers in an opcode byte -/

theorem decodeCb_withBit_reg (b : Field3) (r : Reg8) :
    decodeCb (withZ (withBit 0x40 b) r.code) = .bitR b r ∧ decodeCb (withZ (withBit 0x80 b) r.code) = .resR b r ∧
    decodeCb (withZ (withBit 0xC0 b) r.code) = .setR b r := by
  revert b
  cases r <;> decide

theorem decodeCb_withBit_mem (b : Field3) :
    decodeCb (withBit 0x46 b) = .bitMemHl b ∧ decodeCb (withBit 0x86 b) = .resMemHl b ∧
    decodeCb (withBit 0xC6 b) = .setMemHl b := by
  revert b
  decide

/-- The fields of the opcode bytes of BIT, RES and SET on (IX+d) (R116). -/
theorem fields_withBit (b : Field3) : ∀ op ∈ [(0x46 : Byte), 0x86, 0xC6],
    fieldX (withBit op b) = fieldX op ∧ fieldZ (withBit op b) = 6 ∧ field3Y (withBit op b) = b := by
  revert b
  decide

theorem decodeIdxCb_withBit (j : IdxReg) (d : Byte) (b : Field3) :
    decodeIdxCb j d (withBit 0x46 b) = .bitMemIx b j d ∧ decodeIdxCb j d (withBit 0x86 b) = .resMemIx b j d ∧
    decodeIdxCb j d (withBit 0xC6 b) = .setMemIx b j d := by
  obtain ⟨hbit, hres, hset, -⟩ := by simpa only [List.forall_mem_cons] using fields_withBit b
  obtain ⟨hx, hz, hy⟩ := hbit
  obtain ⟨hx', hz', hy'⟩ := hres
  obtain ⟨hx'', hz'', hy''⟩ := hset
  simp only [decodeIdxCb, hx, hz, hy, hx', hz', hy', hx'', hz'', hy'']
  exact ⟨rfl, rfl, rfl⟩

/-! ## The faulting rows -/

theorem field3_cases (y : Field3) (hy : y ≠ 0) : y = 1 ∨ y = 2 ∨ y = 3 ∨ y = 4 ∨ y = 5 ∨ y = 6 ∨ y = 7 := by
  revert y
  decide

/-- The 28 opcodes of regime ed as the decoder tests for them (R120). -/
theorem mem_edImplemented (op : Byte) :
    op ∈ edImplemented ↔
      op &&& 0xCF = 0x4A ∨ op &&& 0xCF = 0x42 ∨ op &&& 0xCF = 0x43 ∨ op &&& 0xCF = 0x4B ∨ op = 0x44 ∨ op = 0x57 ∨
      op = 0x67 ∨ op = 0x6F ∨ op = 0xA0 ∨ op = 0xA1 ∨ op = 0xA8 ∨ op = 0xA9 ∨ op = 0xB0 ∨ op = 0xB1 ∨ op = 0xB8 ∨
      op = 0xB9 := by
  revert op
  decide +kernel

theorem decodeEd_edOther (op : Byte) (h : op ∉ edImplemented) : decodeEd op = .done (.edOther op) := by
  simp only [mem_edImplemented, not_or] at h
  simp only [decodeEd, h, if_false]

/-- After `CB` in the main map. -/
theorem decode_cb (op : Byte) (rest : List Byte) : decode (0xCB :: op :: rest) = .ok (decodeCb op, rest) := rfl
/-- After `ED` in the main map. -/
theorem decode_ed (op : Byte) (rest : List Byte) : decode (0xED :: op :: rest) = (decodeEd op).runList rest := rfl
/-- After `CB d` in the indexed map. -/
theorem decode_idxCb (j : IdxReg) (d op : Byte) (rest : List Byte) :
    decode (j.pfx :: 0xCB :: d :: op :: rest) = .ok (decodeIdxCb j d op, rest) := by
  cases j <;> rfl

/-- The cases are grouped by the operands that stand in the opcode byte: once these are fixed the decoder runs, whatever
the operand bytes and the rest are. -/
theorem decode_encode (i : Instr) (rest : List Byte) (hi : i.wf = true) :
    decode (encode i ++ rest) = .ok (i, rest) := by
  cases i with
  -- the decoder rows are no whole instructions
  | cbEscape | edEscape | ddPrefix | fdPrefix | cbEscapeIndexed => cases hi
  -- the opcode bytes are fixed
  | nop | ldMemBcA | ldMemDeA | ldAMemBc | ldAMemDe | incMemHl | decMemHl | ldMemHlN | rlca | rrca | rla | rra
  | exAfAf | djnz | jr | daa | cpl | scf | ccf | halt | addAMemHl | addAN | adcAMemHl | adcAN | subMemHl | subN
  | sbcAMemHl | sbcAN | andMemHl | andN | xorMemHl | xorN | orMemHl | orN | cpMemHl | cpN | rst0 | ret | outNA | exx
  | inAN | exMemSpHl | jpHl | exDeHl | di | ldSpHl | ei | rlcMemHl | rrcMemHl | rlMemHl | rrMemHl | slaMemHl
  | sraMemHl | sllMemHl | srlMemHl | neg | ldAI | rrd | rld | ldi | cpi | ldd | cpd | ldir | cpir | lddr | cpdr => rfl
  | ldMemNnHl nn | ldHlMemNn nn | ldMemNnA nn | ldAMemNn nn | jpNn nn | callNn nn => exact ok_joinBytes _ nn rest
  -- the same after a `DD` or `FD` byte
  | incIx j | decIx j | incMemIx j | decMemIx j | ldMemIxN j | addAMemIx j | adcAMemIx j | subMemIx j | sbcAMemIx j
  | andMemIx j | xorMemIx j | orMemIx j | cpMemIx j | popIx j | exMemSpIx j | pushIx j | jpIx j | ldSpIx j
  | rlcMemIx j | rrcMemIx j | rlMemIx j | rrMemIx j | slaMemIx j | sraMemIx j | sllMemIx j | srlMemIx j =>
    cases j <;> rfl
  | ldIxNn j nn | ldMemNnIx j nn | ldIxMemNn j nn => cases j <;> exact ok_joinBytes _ nn rest
  -- a pair or a condition in the opcode byte
  | incRr p | decRr p | addHlRr p | sbcHlRr p | adcHlRr p => cases p <;> rfl
  | ldRrNn p nn | ldMemNnRr p nn | ldRrMemNn p nn => cases p <;> exact ok_joinBytes _ nn rest
  | popQq q | pushQq q => cases q <;> rfl
  | addIxRr j p => cases j <;> cases p <;> rfl
  | jrCc cc => cases cc <;> rfl
  | retCc cc => cases cc <;> rfl
  | jpCcNn cc nn | callCcNn cc nn => cases cc <;> exact ok_joinBytes _ nn rest
  -- one or two registers
  | incR r | decR r | ldRN r | ldRMemHl r | ldMemHlR r | addAR r | adcAR r | subR r | sbcAR r | andR r | xorR r
  | orR r | cpR r | rlcR r | rrcR r | rlR r | rrR r | slaR r | sraR r | sllR r | srlR r => cases r <;> rfl
  | ldRR r r' => cases r <;> cases r' <;> rfl
  | ldRMemIx j r | ldMemIxR j _ r => cases j <;> cases r <;> rfl
  | incIxHalf j h | decIxHalf j h | ldIxHalfN j h | addAIxHalf j h | adcAIxHalf j h | subIxHalf j h | sbcAIxHalf j h
  | andIxHalf j h | xorIxHalf j h | orIxHalf j h | cpIxHalf j h => cases j <;> cases h <;> rfl
  | ldXX j x x' =>
    cases x with
    | hi | lo => cases j <;> cases x' <;> rfl
    | b | c | d | e | a =>
      cases x' with
      | hi | lo => cases j <;> rfl
      | b | c | d | e | a => cases hi
  -- a bit number
  | bitR b r | resR b r | setR b r =>
    simp only [encode, List.cons_append, List.nil_append, decode_cb, decodeCb_withBit_reg b r]
  | bitMemHl b | resMemHl b | setMemHl b =>
    simp only [encode, List.cons_append, List.nil_append, decode_cb, decodeCb_withBit_mem b]
  | bitMemIx b j d | resMemIx b j d | setMemIx b j d =>
    simp only [encode, List.cons_append, List.nil_append, decode_idxCb, decodeIdxCb_withBit j d b]
  -- the faulting rows and the discarded run, with what `hi` says of their opcode bytes
  | rstP y =>
    have hy : y ≠ 0 := by simpa [Instr.wf] using hi
    obtain rfl | rfl | rfl | rfl | rfl | rfl | rfl := field3_cases y hy <;> rfl
  | edOther op =>
    have hop : op ∉ edImplemented := by simpa [Instr.wf] using hi
    exact (decode_ed op rest).trans (by rw [decodeEd_edOther op hop, runList_done])
  | idxCbOther j d op =>
    have hz : fieldZ op ≠ 6 := by simpa [Instr.wf] using hi
    exact (decode_idxCb j d op rest).trans (by rw [decodeIdxCb, if_neg hz])
  | prefixDiscarded j op =>
    obtain ⟨⟨hm, hdd⟩, hfd⟩ : (op ∉ ddFdPrefixable ∧ op ≠ 0xDD) ∧ op ≠ 0xFD := by simpa [Instr.wf] using hi
    exact (decode_pfx j op rest hdd hfd).trans (by rw [decodeIdx, if_pos hm, runList_done])

/-- Settles O10, by cases on the instruction. -/
theorem decodeEncode : Obligations.DecodeEncode :=
  decode_encode

/-- Settles O13: the decoder runs on each word. -/
theorem encodingWords : Obligations.EncodingWords :=
  ⟨rfl, rfl, rfl, rfl, rfl, rfl, rfl, rfl, rfl, rfl, rfl, rfl, rfl, rfl, rfl, rfl, rfl, rfl, rfl, rfl⟩

end Sys2Proof
end

section
/-! What the decoder reads is the encoding of what it gives: every regime, by the fields of the opcode byte
(30_encoding.md R98). -/

namespace Sys2Proof

open Machine

/-! ## The fields of an opcode byte as numbers (30_encoding.md R98) -/

/-- A byte is the number that its fields make, and each field has its range. -/
theorem toNat_eq_fields (op : Byte) :
    op.toNat = 64 * fieldX op + 8 * fieldY op + fieldZ op ∧ fieldY op = 2 * fieldP op + fieldQ op ∧
    fieldX op < 4 ∧ fieldY op < 8 ∧ fieldZ op < 8 ∧ fieldP op < 4 ∧ fieldQ op < 2 := by
  revert op
  decide +kernel

/-- A byte below `2 ^ k` is given by its `k` low bits. -/
theorem setWidth_setWidth_of_lt {v : Byte} (k : Nat) (hv : v.toNat < 2 ^ k) : (v.setWidth k).setWidth 8 = v := by
  apply BitVec.eq_of_toNat_eq
  rw [BitVec.toNat_setWidth, BitVec.toNat_setWidth, Nat.mod_eq_of_lt hv, Nat.mod_eq_of_lt v.isLt]

theorem toNat_field3Y (op : Byte) : (field3Y op).toNat = fieldY op := rfl

@[simp] theorem toNat_withBit (op : Byte) (b : Field3) (h : op.toNat / 8 % 8 = 0) :
    (withBit op b).toNat = op.toNat + 8 * b.toNat := by
  revert op b
  decide +kernel

@[simp] theorem toNat_withY (op v : Byte) (h : op.toNat / 8 % 8 = 0) (hv : v.toNat < 8) :
    (withY op v).toNat = op.toNat + 8 * v.toNat := by
  have hb := toNat_withBit op (v.setWidth 3) h
  rwa [withBit, setWidth_setWidth_of_lt 3 hv, BitVec.toNat_setWidth, Nat.mod_eq_of_lt hv] at hb

/-- In the column of `JR cc` the high bit of `y` is 1 and the condition has two bits (47_control_flow.md R344). -/
@[simp] theorem toNat_withY_condShort (op : Byte) (cc : CondShort) (h : op.toNat / 8 % 4 = 0) :
    (withY op cc.code).toNat = op.toNat + 8 * cc.code.toNat := by
  revert op
  cases cc <;> decide +kernel

@[simp] theorem toNat_withP (op v : Byte) (h : op.toNat / 16 % 4 = 0) (hv : v.toNat < 4) :
    (withP op v).toNat = op.toNat + 16 * v.toNat := by
  have hall : ∀ (op : Byte) (w : BitVec 2), op.toNat / 16 % 4 = 0 →
      (withP op (w.setWidth 8)).toNat = op.toNat + 16 * w.toNat := by decide +kernel
  have hp := hall op (v.setWidth 2) h
  rwa [setWidth_setWidth_of_lt 2 hv, BitVec.toNat_setWidth, Nat.mod_eq_of_lt hv] at hp

@[simp] theorem toNat_withZ (op v : Byte) (h : op.toNat % 8 = 0) (hv : v.toNat < 8) :
    (withZ op v).toNat = op.toNat + v.toNat := by
  have hall : ∀ (op : Byte) (w : BitVec 3), op.toNat % 8 = 0 →
      (withZ op (w.setWidth 8)).toNat = op.toNat + w.toNat := by decide +kernel
  have hz := hall op (v.setWidth 3) h
  rwa [setWidth_setWidth_of_lt 3 hv, BitVec.toNat_setWidth, Nat.mod_eq_of_lt hv] at hz

/-! ## The operand tables: the number of an operand is the field that selects it (R91 to R97) -/

@[simp] theorem Reg8.code_lt (r : Reg8) : r.code.toNat < 8 := by cases r <;> decide
@[simp] theorem RegX.code_lt (x : RegX) : x.code.toNat < 8 := by cases x <;> decide

theorem Reg8.ofField_cases {n : Nat} (hn : n < 8) :
    n = 6 ∧ Reg8.ofField n = none ∨ n ≠ 6 ∧ ∃ r, Reg8.ofField n = some r ∧ r.code.toNat = n := by
  interval_cases n <;> simp [Reg8.ofField, Reg8.code]

theorem RegX.ofField_eq_some {n : Nat} (hn : n < 8) (h6 : n ≠ 6) :
    ∃ x, RegX.ofField n = some x ∧ x.code.toNat = n ∧ (x.isHalf = true ↔ n = 4 ∨ n = 5) := by
  interval_cases n <;> simp at h6 ⊢ <;> simp [RegX.ofField, RegX.code, RegX.isHalf]

@[simp] theorem Half.toNat_code_ofField {n : Nat} (hn : n = 4 ∨ n = 5) : (Half.ofField n).code.toNat = n := by
  obtain rfl | rfl := hn <;> rfl
@[simp] theorem Pair.toNat_code_ofField {n : Nat} (hn : n < 4) : (Pair.ofField n).code.toNat = n := by
  interval_cases n <;> rfl
@[simp] theorem PairX.toNat_code_ofField {n : Nat} (hn : n < 4) : (PairX.ofField n).code.toNat = n := by
  interval_cases n <;> rfl
@[simp] theorem PairQ.toNat_code_ofField {n : Nat} (hn : n < 4) : (PairQ.ofField n).code.toNat = n := by
  interval_cases n <;> rfl
@[simp] theorem Cond.toNat_code_ofField {n : Nat} (hn : n < 8) : (Cond.ofField n).code.toNat = n := by
  interval_cases n <;> rfl
@[simp] theorem CondShort.toNat_code_ofField {n : Nat} (hn : n < 4) : (CondShort.ofField n).code.toNat = n := by
  interval_cases n <;> rfl

/-! ## What the decoder reads is the encoding of what it gives

In each regime the proof follows the decoder's own branches. At a branch's end it remains that the opcode byte is the one
of the row: both are numbers, one made of the fields that led to the branch, the other of the row's base and operand. -/

/-- With the bytes `pre` read before, every instruction that a `Parse` can end in is well-formed, and its encoding is
`pre` and the bytes that the `Parse` reads. -/
def ParseEncodes : List Byte → Parse → Prop
  | pre, .done i => i.wf = true ∧ encode i = pre
  | pre, .byte k => ∀ b, ParseEncodes (pre ++ [b]) (k b)
  | pre, .word k => ∀ w, ParseEncodes (pre ++ [loByte w, hiByte w]) (k w)

@[simp] theorem parseEncodes_done (pre : List Byte) (i : Instr) :
    ParseEncodes pre (.done i) ↔ i.wf = true ∧ encode i = pre := Iff.rfl
@[simp] theorem parseEncodes_byte (pre : List Byte) (k : Byte → Parse) :
    ParseEncodes pre (.byte k) ↔ ∀ b, ParseEncodes (pre ++ [b]) (k b) := Iff.rfl
@[simp] theorem parseEncodes_word (pre : List Byte) (k : Word → Parse) :
    ParseEncodes pre (.word k) ↔ ∀ w, ParseEncodes (pre ++ [loByte w, hiByte w]) (k w) := Iff.rfl

theorem decodeAlu_encodes (op : Byte) (hx : fieldX op = 2) :
    ParseEncodes [op] (.done (decodeAlu (fieldY op) (Reg8.ofField (fieldZ op)))) := by
  rw [parseEncodes_done]
  revert op
  decide +kernel

theorem decodeCb_encodes (op : Byte) : ParseEncodes [0xCB, op] (.done (decodeCb op)) := by
  rw [parseEncodes_done]
  revert op
  decide +kernel

theorem decodeAluN_encodes (op n : Byte) (hx : fieldX op = 3) (hz : fieldZ op = 6) :
    ParseEncodes [op, n] (.done (decodeAluN (fieldY op) n)) := by
  have hop := toNat_eq_fields op
  unfold decodeAluN
  split <;> simp [encode, Instr.wf, ← BitVec.toNat_inj] <;> grind

theorem decodeAluHalf_encodes (j : IdxReg) (op : Byte) (hx : fieldX op = 2) (hz : fieldZ op = 4 ∨ fieldZ op = 5) :
    ParseEncodes [j.pfx, op] (.done (decodeAluHalf (fieldY op) j (Half.ofField (fieldZ op)))) := by
  rw [parseEncodes_done]
  revert op
  cases j <;> decide +kernel

theorem decodeAluMemIx_encodes (j : IdxReg) (op d : Byte) (hx : fieldX op = 2) (hz : fieldZ op = 6) :
    ParseEncodes [j.pfx, op, d] (.done (decodeAluMemIx (fieldY op) j d)) := by
  have hop := toNat_eq_fields op
  unfold decodeAluMemIx
  split <;> simp [encode, Instr.wf, ← BitVec.toNat_inj] <;> grind

theorem decodeIdxCb_encodes (j : IdxReg) (d op : Byte) :
    ParseEncodes [j.pfx, 0xCB, d, op] (.done (decodeIdxCb j d op)) := by
  have hop := toNat_eq_fields op
  unfold decodeIdxCb
  repeat' split
  all_goals simp [encode, Instr.wf, ← BitVec.toNat_inj, toNat_field3Y]
  all_goals grind

theorem withP_pair_of_mask (op base : Byte) (h : op &&& 0xCF = base) :
    withP base (Pair.ofField (fieldP op)).code = op := by
  subst h
  revert op
  decide +kernel

theorem decodeEd_encodes (op : Byte) : ParseEncodes [0xED, op] (decodeEd op) := by
  have hmem := mem_edImplemented op
  unfold decodeEd
  extract_lets p
  repeat' apply iteInduction <;> intro _
  all_goals simp [encode, Instr.wf, p]
  all_goals grind [withP_pair_of_mask]

theorem decodeMain0_encodes (op : Byte) (hx : fieldX op = 0) : ParseEncodes [op] (decodeMain0 op) := by
  obtain ⟨hop, hypq, -, hy, hz, hp, hq⟩ := toNat_eq_fields op
  have hcc : fieldY op - 4 < 4 := by omega
  obtain ⟨hy6, hr⟩ | ⟨hy6, r, hr, hcode⟩ := Reg8.ofField_cases hy
  all_goals
    simp only [decodeMain0, hr]
    repeat' split
    all_goals simp [encode, Instr.wf, ← BitVec.toNat_inj, hp, hcc]
    all_goals grind

theorem decodeMain3_encodes (op : Byte) (hx : fieldX op = 3) (hdd : op ≠ 0xDD) (hfd : op ≠ 0xFD) :
    ParseEncodes [op] (decodeMain3 op) := by
  obtain ⟨hop, hypq, -, hy, hz, hp, hq⟩ := toNat_eq_fields op
  simp only [decodeMain3]
  split
  case h_4 hz3 =>
    split
    case h_2 hy1 =>
      obtain rfl : op = 0xCB := by rw [← BitVec.toNat_inj, hop, hx, hy1, hz3]; rfl
      exact decodeCb_encodes
    all_goals simp [encode, Instr.wf, ← BitVec.toNat_inj]
    all_goals grind
  case h_6 hz5 =>
    split
    case h_1 hq0 =>
      simp [encode, Instr.wf, ← BitVec.toNat_inj, hp]
      omega
    case h_2 hq0 =>
      have hp02 : fieldP op = 0 ∨ fieldP op = 2 := by
        by_contra hp
        exact (eq_prefix_of_fields op (by omega) hz5 hq0 (not_or.1 hp)).elim hdd hfd
      obtain hp0 | hp2 := hp02
      · simp [hp0, encode, Instr.wf, ← BitVec.toNat_inj]
        grind
      · obtain rfl : op = 0xED := by
          rw [← BitVec.toNat_inj, hop, hx, hz5]; grind
        exact decodeEd_encodes
  case h_7 hz6 => exact fun n => decodeAluN_encodes op n hx hz6
  all_goals
    repeat' split
    all_goals simp [encode, Instr.wf, ← BitVec.toNat_inj, hp, hy, toNat_field3Y]
    all_goals grind

theorem decodeMain_encodes (op : Byte) (hdd : op ≠ 0xDD) (hfd : op ≠ 0xFD) : ParseEncodes [op] (decodeMain op) := by
  obtain ⟨hop, -, hx, hy, hz, -, -⟩ := toNat_eq_fields op
  unfold decodeMain
  split
  case isTrue h76 => exact ⟨rfl, congrArg ([·]) h76.symm⟩
  case isFalse h76 =>
    split
    case h_1 hx0 => exact decodeMain0_encodes op hx0
    case h_2 hx1 =>
      obtain ⟨hy6, hr⟩ | ⟨hy6, r, hr, hcode⟩ := Reg8.ofField_cases hy
      all_goals obtain ⟨hz6, hr'⟩ | ⟨hz6, r', hr', hcode'⟩ := Reg8.ofField_cases hz
      · exact absurd (BitVec.eq_of_toNat_eq (by rw [hop, hx1, hy6, hz6]; rfl)) h76
      all_goals
        simp [hr, hr', encode, Instr.wf, ← BitVec.toNat_inj]
        omega
    case h_3 hx2 => exact decodeAlu_encodes op hx2
    case h_4 hx0 hx1 hx2 => exact decodeMain3_encodes op (by grind) hdd hfd

/-! ## The prefixable opcodes by quarter (R110) -/

theorem prefixable_quarter0 : ∀ op ∈ ddFdPrefixable, fieldX op = 0 →
    (fieldZ op = 1 ∧ (fieldQ op = 0 → fieldP op = 2)) ∨ (fieldZ op = 2 ∧ fieldP op = 2) ∨
      (fieldZ op = 3 ∧ fieldP op = 2) ∨
      ((fieldZ op = 4 ∨ fieldZ op = 5 ∨ fieldZ op = 6) ∧ (fieldY op = 6 ∨ fieldY op = 4 ∨ fieldY op = 5)) := by
  decide +kernel

theorem prefixable_quarter1 : ∀ op ∈ ddFdPrefixable, fieldX op = 1 →
    (fieldY op ≠ 6 ∨ fieldZ op ≠ 6) ∧
      (fieldY op = 4 ∨ fieldY op = 5 ∨ fieldY op = 6 ∨ fieldZ op = 4 ∨ fieldZ op = 5 ∨ fieldZ op = 6) := by
  decide +kernel

theorem prefixable_quarter2 : ∀ op ∈ ddFdPrefixable, fieldX op = 2 →
    fieldZ op = 6 ∨ fieldZ op = 4 ∨ fieldZ op = 5 := by
  decide +kernel

theorem prefixable_quarter3 : ∀ op ∈ ddFdPrefixable, fieldX op = 3 →
    op = 0xCB ∨ op = 0xE1 ∨ op = 0xE3 ∨ op = 0xE5 ∨ op = 0xE9 ∨ op = 0xF9 := by
  decide +kernel

theorem decodeIdx0_encodes (j : IdxReg) (op : Byte) (hx : fieldX op = 0) (hm : op ∈ ddFdPrefixable) :
    ParseEncodes [j.pfx, op] (decodeIdx0 j op) := by
  obtain ⟨hop, hypq, -, hy, hz, hp, hq⟩ := toNat_eq_fields op
  obtain ⟨hz', hp2⟩ | ⟨hz', hp2⟩ | ⟨hz', hp2⟩ | ⟨hz456, hy6 | hy45⟩ := prefixable_quarter0 op hm hx
  case inl | inr.inl | inr.inr.inl =>
    simp only [decodeIdx0, hz']
    split <;> simp [encode, Instr.wf, ← BitVec.toNat_inj, hp] <;> grind
  · obtain hz' | hz' | hz' := hz456
    all_goals simp [decodeIdx0, hz', hy6, encode, Instr.wf, ← BitVec.toNat_inj, hop, hx]
  · have hy6 : fieldY op ≠ 6 := by omega
    obtain hz' | hz' | hz' := hz456
    all_goals
      simp [decodeIdx0, hz', hy6, Half.toNat_code_ofField hy45, hy, encode, Instr.wf, ← BitVec.toNat_inj, hop, hx]
      omega

theorem decodeIdx_encodes (j : IdxReg) (op : Byte) (hdd : op ≠ 0xDD) (hfd : op ≠ 0xFD) :
    ParseEncodes [j.pfx, op] (decodeIdx j op) := by
  obtain ⟨hop, -, hx, hy, hz, -, -⟩ := toNat_eq_fields op
  unfold decodeIdx
  split
  case isTrue hm => exact ⟨by simpa [Instr.wf, hm] using ⟨hdd, hfd⟩, rfl⟩
  case isFalse hm =>
    rw [not_not] at hm
    split
    case h_1 hx0 => exact decodeIdx0_encodes j op hx0 hm
    case h_2 hx1 =>
      obtain ⟨h66, hhalf⟩ := prefixable_quarter1 op hm hx1
      obtain ⟨hy6, hr⟩ | ⟨hy6, r, hr, hcode⟩ := Reg8.ofField_cases hy
      all_goals obtain ⟨hz6, hr'⟩ | ⟨hz6, r', hr', hcode'⟩ := Reg8.ofField_cases hz
      case inl.inl => omega
      case inl.inr | inr.inl =>
        simp [hr, hr', encode, Instr.wf, ← BitVec.toNat_inj]
        omega
      case inr.inr =>
        obtain ⟨x, hx, hcx, hhx⟩ := RegX.ofField_eq_some hy hy6
        obtain ⟨x', hx', hcx', hhx'⟩ := RegX.ofField_eq_some hz hz6
        simp [hr, hr', hx, hx', encode, Instr.wf, ← BitVec.toNat_inj, hhx, hhx']
        omega
    case h_3 hx2 =>
      obtain hz6 | hz45 := prefixable_quarter2 op hm hx2
      · rw [if_pos hz6]
        exact fun d => decodeAluMemIx_encodes j op d hx2 hz6
      · rw [if_neg (by omega)]
        exact decodeAluHalf_encodes j op hx2 hz45
    case h_4 hx0 hx1 hx2 =>
      obtain rfl | rfl | rfl | rfl | rfl | rfl := prefixable_quarter3 op hm (by grind)
      · exact decodeIdxCb_encodes j
      all_goals exact ⟨rfl, rfl⟩

end Sys2Proof
end

section
/-! What decodes is canonical, and every long enough byte sequence decodes (30_encoding.md R113, R124). -/

namespace Sys2Proof

open Machine

/-- What a `Parse` gives is well-formed, and the bytes it took are the ones of its encoding. -/
theorem runList_encodes : ∀ (p : Parse) (pre bytes rest : List Byte) (i : Instr), ParseEncodes pre p →
    p.runList bytes = .ok (i, rest) → i.wf = true ∧ pre ++ bytes = encode i ++ rest
  | .done _, pre, bytes, rest, i, hp, h => by
    cases h
    exact ⟨hp.1, by rw [hp.2]⟩
  | .byte k, pre, b :: bytes, rest, i, hp, h => by
    obtain ⟨hwf, hb⟩ := runList_encodes (k b) _ bytes rest i (hp b) h
    exact ⟨hwf, by simpa using hb⟩
  | .byte _, _, [], _, _, _, h => by cases h
  | .word k, pre, lo :: hi :: bytes, rest, i, hp, h => by
    obtain ⟨hwf, hb⟩ := runList_encodes (k _) _ bytes rest i (hp (joinBytes lo hi)) h
    exact ⟨hwf, by simpa using hb⟩
  | .word _, _, [], _, _, _, h => by cases h
  | .word _, _, [_], _, _, _, h => by cases h

/-- No encoding is longer than four bytes (R99), so a `Parse` reads no more. -/
theorem parseEncodes_length_le : ∀ (p : Parse) (pre : List Byte), ParseEncodes pre p → pre.length ≤ 4
  | .done i, _, hp => by
    obtain ⟨hlen, -, hle⟩ := Laws.EncodeLength.all i
    rw [← hp.2, hlen]
    exact hle
  | .byte k, _, hp => le_trans (by simp) (parseEncodes_length_le (k 0) _ (hp 0))
  | .word k, _, hp => le_trans (by simp) (parseEncodes_length_le (k 0) _ (hp 0))

/-- Four bytes, those read before among them, are enough (R99). -/
theorem runList_total : ∀ (p : Parse) (pre bytes : List Byte), ParseEncodes pre p → 4 ≤ pre.length + bytes.length →
    ∃ i rest, p.runList bytes = .ok (i, rest)
  | .done i, _, bytes, _, _ => ⟨i, bytes, rfl⟩
  | .byte k, pre, b :: bytes, hp, h => runList_total (k b) _ bytes (hp b) (by simp at h ⊢; omega)
  | .word k, pre, lo :: hi :: bytes, hp, h =>
    runList_total (k _) _ bytes (hp (joinBytes lo hi)) (by simp at h ⊢; omega)
  | .byte k, pre, [], hp, h => by
    have hle := parseEncodes_length_le (k 0) _ (hp 0)
    simp at hle h
    omega
  | .word k, pre, [], hp, h | .word k, pre, [_], hp, h => by
    have hle := parseEncodes_length_le (k 0) _ (hp 0)
    simp at hle h
    omega

/-! ## Prefix runs (40_instruction_cycle.md R134) -/

/-- The one `DD` or `FD` byte that a latch stands for. -/
def latchBytes : Latch → List Byte
  | .none => []
  | .dd => [0xDD]
  | .fd => [0xFD]

/-- A run of redundant `DD` and `FD` bytes. -/
def IsPrefixRun (run : List Byte) : Prop := ∀ b ∈ run, b = 0xDD ∨ b = 0xFD

theorem latchBytes_isPrefixRun (x : Latch) : IsPrefixRun (latchBytes x) := by
  cases x <;> simp [IsPrefixRun, latchBytes]

theorem decodeOpcode_encodes (x : Latch) (op : Byte) (hdd : op ≠ 0xDD) (hfd : op ≠ 0xFD) :
    ParseEncodes (latchBytes x ++ [op]) (decodeOpcode x op) := by
  cases x with
  | none => exact decodeMain_encodes op hdd hfd
  | dd => exact decodeIdx_encodes .ix op hdd hfd
  | fd => exact decodeIdx_encodes .iy op hdd hfd

/-- The byte that a latch stands for and those decoded with it are a redundant run, the encoding of a well-formed
instruction, and what is left. -/
theorem decodeWith_canonical (x : Latch) (bytes rest : List Byte) (i : Instr) (h : decodeWith x bytes = .ok (i, rest)) :
    i.wf = true ∧ ∃ run, IsPrefixRun run ∧ latchBytes x ++ bytes = run ++ encode i ++ rest := by
  induction bytes generalizing x with
  | nil => cases h
  | cons op bytes ih =>
    have absorb (y : Latch) (hy : latchBytes y = [op]) (h : decodeWith y bytes = .ok (i, rest)) :
        i.wf = true ∧ ∃ run, IsPrefixRun run ∧ latchBytes x ++ op :: bytes = run ++ encode i ++ rest := by
      obtain ⟨hwf, run, hrun, hbytes⟩ := ih y h
      refine ⟨hwf, latchBytes x ++ run, ?_, ?_⟩
      · exact fun b hb => (List.mem_append.1 hb).elim (latchBytes_isPrefixRun x b) (hrun b)
      · rw [List.append_assoc, List.append_assoc, ← List.append_assoc run, ← hbytes, hy]
        rfl
    rw [decodeWith] at h
    split at h
    case isTrue hdd => exact absorb .dd (by rw [hdd, latchBytes]) h
    case isFalse hdd =>
      split at h
      case isTrue hfd => exact absorb .fd (by rw [hfd, latchBytes]) h
      case isFalse hfd =>
        obtain ⟨hwf, hbytes⟩ := runList_encodes _ _ bytes rest i (decodeOpcode_encodes x op hdd hfd) h
        exact ⟨hwf, [], nofun, by simpa using hbytes⟩

/-- Settles O11: the latch is NONE at the start. -/
theorem decodedBytesAreCanonical : Obligations.DecodedBytesAreCanonical :=
  fun bytes rest i h => decodeWith_canonical .none bytes rest i h

/-- The last byte of a run of `DD` and `FD` bytes decides. -/
theorem decodeWith_run (run bytes : List Byte) (hrun : IsPrefixRun run) (hne : run ≠ []) (x : Latch) :
    ∃ j : IdxReg, decodeWith x (run ++ bytes) = decode (j.pfx :: bytes) := by
  induction run generalizing x with
  | nil => exact absurd rfl hne
  | cons b run ih =>
    obtain ⟨hb, hrun⟩ := List.forall_mem_cons.1 hrun
    have hstep : ∃ (j : IdxReg) (y : Latch), decodeWith x (b :: run ++ bytes) = decodeWith y (run ++ bytes) ∧
        ∀ bytes, decodeWith y bytes = decode (j.pfx :: bytes) := by
      obtain rfl | rfl := hb
      · exact ⟨.ix, .dd, rfl, fun _ => rfl⟩
      · exact ⟨.iy, .fd, rfl, fun _ => rfl⟩
    obtain ⟨j, y, hx, hy⟩ := hstep
    rw [hx]
    by_cases hr : run = []
    · exact ⟨j, by rw [hr]; exact hy bytes⟩
    · exact ih hrun hr y

/-! ## Every long enough byte sequence decodes -/

/-- What the head of some bytes decodes to, said by the encoder alone. -/
theorem decode_eq_iff {bytes left : List Byte} {i : Instr} (h : decode bytes = .ok (i, left)) (hwf : i.wf = true)
    (hb : bytes = encode i ++ left) (i' : Instr) :
    i = i' ↔ i'.wf = true ∧ ∃ rest, bytes = encode i' ++ rest := by
  constructor
  · rintro rfl
    exact ⟨hwf, left, hb⟩
  · rintro ⟨hwf', rest, rfl⟩
    have heq := (decode_encode i' rest hwf').symm.trans h
    cases heq
    rfl

/-- After an opcode byte three bytes are enough, with a `DD` or `FD` byte before it or without. -/
theorem decode_total (pre : List Byte) (p : Parse) (op : Byte) (tail : List Byte) (hp : ParseEncodes (pre ++ [op]) p)
    (hdec : decode (pre ++ op :: tail) = p.runList tail) (htail : 3 ≤ tail.length) :
    ∃ i left, decode (pre ++ op :: tail) = .ok (i, left) ∧
      ∀ i', i = i' ↔ i'.wf = true ∧ ∃ rest, pre ++ op :: tail = encode i' ++ rest := by
  obtain ⟨i, left, hi⟩ := runList_total p _ tail hp (by simp; omega)
  obtain ⟨hwf, hb⟩ := runList_encodes p _ tail left i hp hi
  rw [List.append_assoc] at hb
  exact ⟨i, left, hdec.trans hi, decode_eq_iff (hdec.trans hi) hwf hb⟩

theorem rstP_opcode_iff (op : Byte) :
    (∃ y : Field3, y ≠ 0 ∧ op = withBit 0xC7 y) ↔ op &&& 0xC7 = 0xC7 ∧ op ≠ 0xC7 := by
  revert op
  decide +kernel

theorem pfx_ne_rstP (j : IdxReg) (y : Field3) : j.pfx ≠ withBit 0xC7 y := by
  revert y
  cases j <;> decide

theorem pfx_ne_ed (j : IdxReg) : j.pfx ≠ 0xED := by cases j <;> decide

theorem ne_pfx {op : Byte} (hdd : op ≠ 0xDD) (hfd : op ≠ 0xFD) (j : IdxReg) : op ≠ j.pfx := by
  cases j
  · exact hdd
  · exact hfd

theorem fieldZ_eq_six_iff (op : Byte) : fieldZ op = 6 ↔ op &&& 7 = 6 := by
  revert op
  decide +kernel

/-- Settles O12: a faulting row is what the bytes decode to exactly when its encoding begins them. -/
theorem decodeIsTotal : Obligations.DecodeIsTotal := by
  intro run op b1 b2 b3 rest hrun hdd hfd
  by_cases hne : run = []
  · subst hne
    obtain ⟨i, left, hi, hiff⟩ := decode_total [] _ op (b1 :: b2 :: b3 :: rest) (decodeMain_encodes op hdd hfd)
      (decode_cons op _ hdd hfd) (by simp)
    refine ⟨i, left, hi, ?_, ?_, ?_⟩
    · simpa [hiff, encode, Instr.wf] using rstP_opcode_iff op
    · simp [hiff, encode, Instr.wf, and_comm, and_assoc]
    · simp [hiff, encode, Instr.wf, ne_pfx hdd hfd]
  · obtain ⟨j, hj⟩ := decodeWith_run run (op :: b1 :: b2 :: b3 :: rest) hrun hne .none
    obtain ⟨i, left, hi, hiff⟩ := decode_total [j.pfx] _ op (b1 :: b2 :: b3 :: rest) (decodeIdx_encodes j op hdd hfd)
      (decode_pfx j op _ hdd hfd) (by simp)
    refine ⟨i, left, hj.trans hi, ?_, ?_, ?_⟩
    · simpa [hiff, encode, Instr.wf, hne] using fun y _ => pfx_ne_rstP j y
    · simpa [hiff, encode, Instr.wf, hne] using fun _ => pfx_ne_ed j
    · simp [hiff, encode, Instr.wf, hne, fieldZ_eq_six_iff, and_comm]

end Sys2Proof
end

section
/-! The instruction cycle on bytes that lie at PC: a fetch from memory does what the decoder does on the list
(40_instruction_cycle.md R130 to R137). -/

namespace Sys2Proof.Machine

/-! ## Bytes in memory -/

theorem add_ofNat_succ (a : Word) (k : Nat) : a + BitVec.ofNat 16 (k + 1) = a + 1 + BitVec.ofNat 16 k := by
  rw [BitVec.ofNat_add, BitVec.add_assoc, BitVec.add_comm (BitVec.ofNat 16 k)]
  rfl

theorem State.holdsAt_cons (s : State) (a : Word) (b : Byte) (bytes : List Byte) :
    s.HoldsAt a (b :: bytes) ↔ (a.toNat < s.cfg.ramSize ∧ s.byteAt a = b) ∧ s.HoldsAt (a + 1) bytes := by
  have hfirst : a + BitVec.ofNat 16 0 = a := BitVec.add_zero a
  constructor
  · intro h
    refine ⟨hfirst ▸ h 0 (Nat.zero_lt_succ _), fun k hk => ?_⟩
    rw [← add_ofNat_succ]
    exact h (k + 1) (Nat.succ_lt_succ hk)
  · rintro ⟨hb, hrest⟩ k hk
    cases k with
    | zero =>
      rw [hfirst]
      exact hb
    | succ k =>
      rw [add_ofNat_succ]
      exact hrest k (Nat.lt_of_succ_lt_succ hk)

theorem State.holdsAt_append (s : State) (a : Word) (xs ys : List Byte) :
    s.HoldsAt a (xs ++ ys) ↔ s.HoldsAt a xs ∧ s.HoldsAt (a + BitVec.ofNat 16 xs.length) ys := by
  induction xs generalizing a with
  | nil => simp [State.HoldsAt]
  | cons x xs ih =>
    rw [List.cons_append, State.holdsAt_cons, State.holdsAt_cons, ih, List.length_cons, add_ofNat_succ,
      and_assoc (c := s.HoldsAt _ ys)]

/-- Two bytes in memory are the word of a 16-bit access, unless they lie across `0xFFFF` and `0x0000` (20_memory.md R66,
D4). -/
theorem State.wordAt_of_holdsAt {s : State} {a : Word} {lo hi : Byte} (h : s.HoldsAt a [lo, hi]) (hne : a ≠ 0xFFFF) :
    s.WordInside a ∧ s.wordAt a = joinBytes lo hi := by
  obtain ⟨⟨-, rfl⟩, hrest⟩ := (s.holdsAt_cons a lo [hi]).1 h
  obtain ⟨⟨hin, rfl⟩, -⟩ := (s.holdsAt_cons (a + 1) hi []).1 hrest
  have hnext : (a + 1).toNat = a.toNat + 1 := by bv_omega
  exact ⟨⟨by omega, hne⟩, rfl⟩

/-! ## PC past some bytes -/

/-- The state with PC past `n` bytes, modulo 65536. -/
def State.advance (s : State) (n : Nat) : State := s.jump (s.pc + BitVec.ofNat 16 n)

@[simp] theorem State.advance_pc (s : State) (n : Nat) : (s.advance n).pc = s.pc + BitVec.ofNat 16 n := rfl
@[simp] theorem State.advance_setLatch (s : State) (x : Latch) (n : Nat) :
    (s.setLatch x).advance n = (s.advance n).setLatch x := rfl
@[simp] theorem State.setLatch_setLatch (s : State) (x y : Latch) : (s.setLatch x).setLatch y = s.setLatch y := rfl
@[simp] theorem State.holdsAt_advance (s : State) (n : Nat) (a : Word) (bytes : List Byte) :
    (s.advance n).HoldsAt a bytes ↔ s.HoldsAt a bytes := Iff.rfl
@[simp] theorem State.holdsAt_setLatch (s : State) (x : Latch) (a : Word) (bytes : List Byte) :
    (s.setLatch x).HoldsAt a bytes ↔ s.HoldsAt a bytes := Iff.rfl

@[simp] theorem State.advance_zero (s : State) : s.advance 0 = s := by simp [State.advance, State.jump]

@[simp] theorem State.advance_advance (s : State) (m n : Nat) : (s.advance m).advance n = s.advance (m + n) := by
  simp [State.advance, State.jump, BitVec.ofNat_add, BitVec.add_assoc]

/-! ## Fetches from bytes in memory -/

theorem State.fetch8_of_holdsAt {s : State} {b : Byte} {bytes : List Byte} (h : s.HoldsAt s.pc (b :: bytes)) :
    s.fetch8 = .ok (b, s.advance 1) ∧ (s.advance 1).HoldsAt (s.advance 1).pc bytes := by
  obtain ⟨⟨hin, hb⟩, hrest⟩ := (s.holdsAt_cons s.pc b bytes).1 h
  exact ⟨(s.fetch8_ok _ b).2 ⟨(s.byteOk_iff s.pc).2 hin, hb.symm, rfl⟩, hrest⟩

theorem fetchParse_byte {s : State} {b : Byte} {bytes : List Byte} (k : Byte → Parse)
    (h : s.HoldsAt s.pc (b :: bytes)) : fetchParse (.byte k) s = fetchParse (k b) (s.advance 1) := by
  rw [fetchParse, (State.fetch8_of_holdsAt h).1]

theorem fetchParse_word {s : State} {w : Word} (k : Word → Parse) (h : s.WordInside s.pc) (hw : s.wordAt s.pc = w) :
    fetchParse (.word k) s = fetchParse (k w) (s.advance 2) := by
  rw [fetchParse, (s.fetch16_ok (s.advance 2) w).2 ⟨(s.wordOk_iff s.pc).2 h, hw.symm, rfl⟩]

theorem fetchParse_word_error (s : State) (k : Word → Parse) (h : ¬ s.WordInside s.pc) :
    fetchParse (.word k) s = .error (.memoryOutOfRange s.pc) := by
  rw [fetchParse, s.fetch16_eq_error h]

/-! ## Prefix runs -/

/-- What a `DD` or `FD` byte sets the latch to (R134). -/
def prefixLatch (b : Byte) : Latch := if b = 0xDD then .dd else .fd

/-- The latch after a run of `DD` and `FD` bytes: each overwrites it (R134). -/
def runLatch : Latch → List Byte → Latch
  | x, [] => x
  | _, b :: run => runLatch (prefixLatch b) run

theorem absorb_prefix {s : State} {b : Byte} {bytes : List Byte} (hb : b = 0xDD ∨ b = 0xFD)
    (h : s.HoldsAt s.pc (b :: bytes)) (n : Nat) :
    absorb (n + 1) s = absorb n ((s.advance 1).setLatch (prefixLatch b)) := by
  rw [absorb, (State.fetch8_of_holdsAt h).1]
  obtain rfl | rfl := hb <;> rfl

theorem decodeWith_prefix {b : Byte} (hb : b = 0xDD ∨ b = 0xFD) (x : Latch) (bytes : List Byte) :
    decodeWith x (b :: bytes) = decodeWith (prefixLatch b) bytes := by
  obtain rfl | rfl := hb <;> rfl

/-- A run before an opcode byte has fewer than 65536 bytes: otherwise the address of the opcode byte, modulo 65536,
would hold one of them (R136). -/
theorem prefixRun_length_lt {s : State} {a : Word} {run : List Byte} {op : Byte} (hrun : IsPrefixRun run)
    (hdd : op ≠ 0xDD) (hfd : op ≠ 0xFD) (h : s.HoldsAt a (run ++ [op])) : run.length < 65536 := by
  by_contra hlen
  obtain ⟨hpre, hop⟩ := (s.holdsAt_append a run [op]).1 h
  obtain ⟨⟨-, hop⟩, -⟩ := (s.holdsAt_cons _ op []).1 hop
  have hk : run.length - 65536 < run.length := by omega
  have hwrap : BitVec.ofNat 16 (run.length - 65536) = BitVec.ofNat 16 run.length := by
    apply BitVec.eq_of_toNat_eq
    rw [BitVec.toNat_ofNat, BitVec.toNat_ofNat]
    omega
  have hb : op = run[run.length - 65536] := by rw [← hop, ← hwrap, (hpre _ hk).2]
  obtain hb' | hb' := hrun _ (List.getElem_mem hk)
  · exact hdd (hb.trans hb')
  · exact hfd (hb.trans hb')

/-- Absorption takes the run and the opcode byte, and the latch comes out as the run leaves it (R134). -/
theorem absorb_run {op : Byte} (hdd : op ≠ 0xDD) (hfd : op ≠ 0xFD) {run : List Byte} (hrun : IsPrefixRun run)
    (n : Nat) (s : State) (hn : run.length < n) (h : s.HoldsAt s.pc (run ++ [op])) :
    absorb n s = .ok (op, (s.advance (run.length + 1)).setLatch (runLatch s.latch run)) := by
  induction run generalizing n s with
  | nil =>
    obtain ⟨n, rfl⟩ := Nat.exists_eq_add_one.2 hn
    simp only [absorb, (State.fetch8_of_holdsAt h).1, hdd, hfd, if_false]
    rfl
  | cons b run ih =>
    obtain ⟨n, rfl⟩ := Nat.exists_eq_add_one.2 (Nat.zero_lt_of_lt hn)
    obtain ⟨hb, hrun⟩ := List.forall_mem_cons.1 hrun
    rw [absorb_prefix hb h, ih hrun n ((s.advance 1).setLatch (prefixLatch b)) (Nat.lt_of_succ_lt_succ hn)
      (State.fetch8_of_holdsAt h).2, State.advance_setLatch, State.setLatch_setLatch, State.advance_advance,
      Nat.add_comm 1]
    rfl

/-- What decodes is a run, an opcode byte, and bytes that the rest of the decoder takes (R133, R134). -/
theorem decodeWith_ok (x : Latch) (bytes : List Byte) (r : Instr × List Byte) (h : decodeWith x bytes = .ok r) :
    ∃ run op tail, bytes = run ++ op :: tail ∧ IsPrefixRun run ∧ op ≠ 0xDD ∧ op ≠ 0xFD ∧
      (decodeOpcode (runLatch x run) op).runList tail = .ok r := by
  induction bytes generalizing x with
  | nil => cases h
  | cons b bytes ih =>
    by_cases hb : b = 0xDD ∨ b = 0xFD
    · rw [decodeWith_prefix hb] at h
      obtain ⟨run, op, tail, rfl, hrun, hop⟩ := ih _ h
      exact ⟨b :: run, op, tail, rfl, List.forall_mem_cons.2 ⟨hb, hrun⟩, hop⟩
    · obtain ⟨hdd, hfd⟩ := not_or.1 hb
      rw [decodeWith, if_neg hdd, if_neg hfd] at h
      exact ⟨[], b, bytes, rfl, nofun, hdd, hfd, h⟩

/-- The fetch of an instruction whose run and opcode byte lie at PC: the rest of the decoder, run in memory (R137). -/
theorem fetchInstr_run {s : State} {run : List Byte} {op : Byte} (hrun : IsPrefixRun run) (hdd : op ≠ 0xDD)
    (hfd : op ≠ 0xFD) (h : s.HoldsAt s.pc (run ++ [op])) :
    fetchInstr s = (fetchParse (decodeOpcode (runLatch .none run) op)
      ((s.advance (run.length + 1)).setLatch (runLatch .none run))).map fun r => (r.1, r.2.setLatch .none) := by
  rw [fetchInstr, absorb_run hdd hfd hrun 65536 (s.setLatch .none) (prefixRun_length_lt hrun hdd hfd h) h]
  cases hp : fetchParse (decodeOpcode (runLatch .none run) op)
    ((s.advance (run.length + 1)).setLatch (runLatch .none run)) with
  | error e => simp [hp, Except.map]
  | ok r => simp [hp, Except.map]

/-! ## Where a 16-bit immediate stands (30_encoding.md R99, R101) -/

/-- A `Parse` reads a word only as the last thing, and only for an instruction that ends in a 16-bit immediate; the
other instructions it gives end in none. -/
def WordIsLast : Parse → Prop
  | .done i => hasImm16 i = false
  | .byte k => ∀ b, WordIsLast (k b)
  | .word k => ∀ w, ∃ i, k w = .done i ∧ hasImm16 i = true

@[simp] theorem wordIsLast_done (i : Instr) : WordIsLast (.done i) ↔ hasImm16 i = false := Iff.rfl
@[simp] theorem wordIsLast_byte (k : Byte → Parse) : WordIsLast (.byte k) ↔ ∀ b, WordIsLast (k b) := Iff.rfl
@[simp] theorem wordIsLast_word (k : Word → Parse) :
    WordIsLast (.word k) ↔ ∀ w, ∃ i, k w = .done i ∧ hasImm16 i = true := Iff.rfl

theorem hasImm16_decodeAlu (y : Nat) (o : Option Reg8) : hasImm16 (decodeAlu y o) = false := by
  unfold decodeAlu
  split <;> split <;> rfl

theorem hasImm16_decodeAluN (y : Nat) (n : Byte) : hasImm16 (decodeAluN y n) = false := by
  unfold decodeAluN
  split <;> rfl

theorem hasImm16_decodeAluHalf (y : Nat) (j : IdxReg) (h : Half) : hasImm16 (decodeAluHalf y j h) = false := by
  unfold decodeAluHalf
  split <;> rfl

theorem hasImm16_decodeAluMemIx (y : Nat) (j : IdxReg) (d : Byte) : hasImm16 (decodeAluMemIx y j d) = false := by
  unfold decodeAluMemIx
  split <;> rfl

theorem hasImm16_decodeCb (op : Byte) : hasImm16 (decodeCb op) = false := by
  revert op
  decide +kernel

theorem hasImm16_decodeIdxCb (j : IdxReg) (d op : Byte) : hasImm16 (decodeIdxCb j d op) = false := by
  unfold decodeIdxCb
  split
  · split
    · split <;> rfl
    all_goals rfl
  · rfl

theorem decodeEd_wordIsLast (op : Byte) : WordIsLast (decodeEd op) := by
  unfold decodeEd
  extract_lets p
  repeat' apply iteInduction <;> intro _
  all_goals simp [hasImm16]

theorem decodeMain0_wordIsLast (op : Byte) : WordIsLast (decodeMain0 op) := by
  simp only [decodeMain0]
  repeat' split
  all_goals simp [hasImm16]

theorem decodeMain3_wordIsLast (op : Byte) : WordIsLast (decodeMain3 op) := by
  simp only [decodeMain3]
  split
  case h_4 =>
    split
    case h_2 => exact hasImm16_decodeCb
    all_goals simp [hasImm16]
  case h_7 => exact hasImm16_decodeAluN _
  all_goals repeat' split
  all_goals simp [hasImm16, decodeEd_wordIsLast]

theorem decodeMain_wordIsLast (op : Byte) : WordIsLast (decodeMain op) := by
  unfold decodeMain
  split
  · rfl
  · split
    · exact decodeMain0_wordIsLast op
    · split <;> rfl
    · exact hasImm16_decodeAlu _ _
    · exact decodeMain3_wordIsLast op

theorem decodeIdx0_wordIsLast (j : IdxReg) (op : Byte) : WordIsLast (decodeIdx0 j op) := by
  simp only [decodeIdx0]
  repeat' split
  all_goals simp [hasImm16]

theorem decodeIdx_wordIsLast (j : IdxReg) (op : Byte) : WordIsLast (decodeIdx j op) := by
  unfold decodeIdx
  split
  · rfl
  · split
    · exact decodeIdx0_wordIsLast j op
    · repeat' split
      all_goals simp [hasImm16]
    · split
      · exact fun d => hasImm16_decodeAluMemIx _ j d
      · exact hasImm16_decodeAluHalf _ _ _
    · split
      · exact hasImm16_decodeIdxCb j
      · repeat' split
        all_goals rfl

theorem decodeOpcode_wordIsLast (x : Latch) (op : Byte) : WordIsLast (decodeOpcode x op) := by
  cases x with
  | none => exact decodeMain_wordIsLast op
  | dd => exact decodeIdx_wordIsLast .ix op
  | fd => exact decodeIdx_wordIsLast .iy op

/-! ## The rest of an instruction, from a list and from memory -/

/-- Without a 16-bit immediate a fetch reads byte by byte what the list decoder takes. -/
theorem fetchParse_of_runList : ∀ (p : Parse) (bytes : List Byte) (i : Instr) (s : State), WordIsLast p →
    p.runList bytes = .ok (i, []) → hasImm16 i = false → s.HoldsAt s.pc bytes →
    fetchParse p s = .ok (i, s.advance bytes.length)
  | .done _, _, _, s, _, h, _, _ => by
    cases h
    simp [fetchParse]
  | .byte k, b :: bytes, i, s, hp, h, hi, hs => by
    rw [fetchParse_byte k hs, fetchParse_of_runList (k b) bytes i _ (hp b) h hi (State.fetch8_of_holdsAt hs).2]
    simp [Nat.add_comm]
  | .byte _, [], _, _, _, h, _, _ => by cases h
  | .word k, lo :: hi :: bytes, i, _, hp, h, hi', _ => by
    obtain ⟨i', hk, hi''⟩ := hp (joinBytes lo hi)
    rw [runList_word, hk] at h
    cases h
    rw [hi'] at hi''
    cases hi''
  | .word _, [], _, _, _, h, _, _ => by cases h
  | .word _, [_], _, _, _, h, _, _ => by cases h

/-- An instruction with a 16-bit immediate reads the bytes before it one by one and then the immediate as one word. -/
theorem fetchParse_of_runList_imm16 : ∀ (p : Parse) (bytes : List Byte) (i : Instr), WordIsLast p →
    p.runList bytes = .ok (i, []) → hasImm16 i = true →
    ∃ front lo hi k, bytes = front ++ [lo, hi] ∧ k (joinBytes lo hi) = .done i ∧
      ∀ s : State, s.HoldsAt s.pc front → fetchParse p s = fetchParse (.word k) (s.advance front.length)
  | .done _, _, _, hp, h, hi => by
    cases h
    rw [wordIsLast_done, hi] at hp
    cases hp
  | .byte k, b :: bytes, i, hp, h, hi => by
    obtain ⟨front, lo, hi, k', rfl, hk, hfetch⟩ := fetchParse_of_runList_imm16 (k b) bytes i (hp b) h hi
    refine ⟨b :: front, lo, hi, k', rfl, hk, fun s hs => ?_⟩
    rw [fetchParse_byte k hs, hfetch _ (State.fetch8_of_holdsAt hs).2]
    simp [Nat.add_comm]
  | .byte _, [], _, _, h, _ => by cases h
  | .word k, lo :: hi :: bytes, i, hp, h, _ => by
    obtain ⟨i', hk, -⟩ := hp (joinBytes lo hi)
    rw [runList_word, hk] at h
    cases h
    exact ⟨[], lo, hi, k, rfl, hk, fun s _ => by simp⟩
  | .word _, [], _, _, h, _ => by cases h
  | .word _, [_], _, _, h, _ => by cases h

/-! ## The fetch of a whole instruction -/

/-- An instruction without a 16-bit immediate is fetched from its bytes in memory. -/
theorem fetchInstr_of_decode {bytes : List Byte} {i : Instr} (s : State) (h : decode bytes = .ok (i, []))
    (hi : hasImm16 i = false) (hs : s.HoldsAt s.pc bytes) :
    fetchInstr s = .ok (i, (s.advance bytes.length).setLatch .none) := by
  obtain ⟨run, op, tail, rfl, hrun, hdd, hfd, htail⟩ := decodeWith_ok _ _ _ h
  rw [List.append_cons, State.holdsAt_append] at hs
  obtain ⟨hop, hs⟩ := hs
  rw [fetchInstr_run hrun hdd hfd hop, fetchParse_of_runList _ tail i _ (decodeOpcode_wordIsLast _ _) htail hi
    (by simpa using hs)]
  simp [Except.map, Nat.add_comm, Nat.add_left_comm, Nat.add_assoc]

/-- An instruction with a 16-bit immediate is fetched when the bytes before it are in memory and the immediate is a word
inside it; where that word is not inside, the fetch faults with its address (R101, D4). -/
theorem fetchInstr_of_decode_imm16 {bytes : List Byte} {i : Instr} (h : decode bytes = .ok (i, []))
    (himm : hasImm16 i = true) :
    ∃ front lo hi, bytes = front ++ [lo, hi] ∧ ∀ s : State, s.HoldsAt s.pc front →
      let immAt := s.pc + BitVec.ofNat 16 front.length
      (s.WordInside immAt → s.wordAt immAt = joinBytes lo hi →
        fetchInstr s = .ok (i, (s.advance (front.length + 2)).setLatch .none)) ∧
      (¬ s.WordInside immAt → fetchInstr s = .error (.memoryOutOfRange immAt)) := by
  obtain ⟨run, op, tail, rfl, hrun, hdd, hfd, htail⟩ := decodeWith_ok _ _ _ h
  obtain ⟨front, lo, hi, k, rfl, hk, hfetch⟩ :=
    fetchParse_of_runList_imm16 _ tail i (decodeOpcode_wordIsLast _ _) htail himm
  refine ⟨run ++ op :: front, lo, hi, by simp, fun s hs => ?_⟩
  rw [List.append_cons, State.holdsAt_append] at hs
  obtain ⟨hop, hs⟩ := hs
  have hlen : (run ++ op :: front).length = run.length + 1 + front.length := by simp; omega
  have hread : fetchInstr s = (fetchParse (.word k) ((s.advance (run ++ op :: front).length).setLatch
      (runLatch .none run))).map fun r => (r.1, r.2.setLatch .none) := by
    rw [fetchInstr_run hrun hdd hfd hop, hfetch _ (by simpa using hs), State.advance_setLatch, State.advance_advance,
      hlen]
  refine ⟨fun hin hw => ?_, fun hout => ?_⟩
  · rw [hread, fetchParse_word (s := (s.advance _).setLatch _) k hin hw, hk, State.advance_setLatch,
      State.advance_advance]
    rfl
  · rw [hread, fetchParse_word_error _ k hout]
    rfl

/-! ## The step -/

theorem State.Fetches.not_atSentinel {s : State} (h : s.Fetches) : s.atSentinel = false := by
  obtain ⟨-, hpc | hstart⟩ := h
  · rw [State.atSentinel, decide_eq_false hpc, Bool.false_and]
  · rw [State.atSentinel, hstart, Bool.not_true, Bool.and_false]

theorem step_of_fetch_error {s : State} {e : Fault} (h : s.Fetches)
    (hf : fetchInstr { s with starting := false } = .error e) : step s = .fault e := by
  rw [step, cycle, if_neg (by simp [h.1]), if_neg (by simp [h.not_atSentinel]), hf]

/-- R130, R137: a step runs the instruction whose bytes lie at PC. -/
theorem step_of_decode {s : State} {bytes : List Byte} {i : Instr} (hf : s.Fetches) (h : decode bytes = .ok (i, []))
    (hs : s.HoldsAt s.pc bytes) (himm : hasImm16 i = true → s.pc + BitVec.ofNat 16 (bytes.length - 2) ≠ 0xFFFF) :
    step s = exec i { s with pc := s.pc + BitVec.ofNat 16 bytes.length, starting := false, latch := .none } := by
  apply step_of_fetch s _ i hf.1 hf.not_atSentinel
  cases hi : hasImm16 i with
  | false => exact fetchInstr_of_decode _ h hi hs
  | true =>
    obtain ⟨front, lo, hi', rfl, hfetch⟩ := fetchInstr_of_decode_imm16 h hi
    obtain ⟨hfront, hword⟩ := (s.holdsAt_append s.pc front [lo, hi']).1 hs
    obtain ⟨hin, hw⟩ := State.wordAt_of_holdsAt hword (by simpa using himm hi)
    rw [List.length_append]
    exact (hfetch { s with starting := false } hfront).1 hin hw

/-- Settles O14: the fetch reads the bytes as the decoder does, and a 16-bit immediate as one word. -/
theorem stepRunsDecoded : Obligations.StepRunsDecoded := by
  intro s bytes i hf h
  refine ⟨step_of_decode hf h, fun hi hs hout => step_of_fetch_error hf ?_⟩
  obtain ⟨front, lo, hi', rfl, hfetch⟩ := fetchInstr_of_decode_imm16 h hi
  have hlen : (front ++ [lo, hi']).length - 2 = front.length := by simp
  rw [hlen] at hs hout ⊢
  rw [List.take_left] at hs
  exact (hfetch { s with starting := false } hs).2 hout

/-- Settles O15: the termination check comes before the fetch. -/
theorem stepStopsAtZero : Obligations.StepStopsAtZero := by
  intro s hr hpc hs
  rw [step, cycle, if_neg (by simp [hr]), if_pos (by simp [State.atSentinel, hpc, hs])]
  rfl

/-- Settles O16: the bytes decode to the row that discards the run, and its operation takes PC back by one. -/
theorem stepDiscardsPrefix : Obligations.StepDiscardsPrefix := by
  intro s run op hf hlatch hne hrun hop hdd hfd hs
  obtain ⟨j, hj⟩ := decodeWith_run run [op] hrun hne .none
  have hwf : (Instr.prefixDiscarded j op).wf = true := by simpa [Instr.wf, hop] using ⟨hdd, hfd⟩
  have hdec : decode (run ++ [op]) = .ok (.prefixDiscarded j op, []) := hj.trans (decode_encode _ [] hwf)
  have hpc : s.pc + BitVec.ofNat 16 (run ++ [op]).length - 1 = s.pc + BitVec.ofNat 16 run.length := by
    rw [List.length_append, BitVec.ofNat_add, ← BitVec.add_assoc]
    exact BitVec.add_sub_cancel _ 1
  rw [step_of_decode hf hdec hs nofun, exec_prefixDiscarded, execPrefixDiscarded, hpc, ← hlatch]

end Sys2Proof.Machine
end

section
/-! The 8-bit loads (42_load8.md). -/

namespace Sys2Proof

/-- The plain register or the index half that `x8[i]` is after a `DD` or `FD` byte (30_encoding.md R92). -/
def RegX.target : RegX → Reg8 ⊕ Half
  | .b => .inl .b
  | .c => .inl .c
  | .d => .inl .d
  | .e => .inl .e
  | .hi => .inr .hi
  | .lo => .inr .lo
  | .a => .inl .a

theorem RegX.target_injective : Function.Injective RegX.target := by
  intro x y h
  cases x <;> cases y <;> first | rfl | cases h

/-- The mapped registers reach neither H nor L (42_load8.md R200). -/
theorem RegX.ne_of_target {x : RegX} {r : Reg8} (h : x.target = .inl r) : r ≠ .h ∧ r ≠ .l := by
  cases x <;> cases h <;> exact ⟨nofun, nofun⟩

end Sys2Proof

namespace Sys2Proof.Machine

/-! ## Register to register (R200, R203) -/

theorem State.setR8_frame (s : State) (r : Reg8) (v : Byte) :
    s.setR8 r v = { s with main := (s.setR8 r v).main } := by
  cases r <;> rfl

@[simp] theorem State.setR8_getIx (s : State) (r : Reg8) (v : Byte) (j : IdxReg) :
    (s.setR8 r v).getIx j = s.getIx j := by
  cases j
  · exact s.setR8_ix r v
  · exact s.setR8_iy r v

@[simp] theorem State.setR8_getHalf (s : State) (r : Reg8) (v : Byte) (j : IdxReg) (h : Half) :
    (s.setR8 r v).getHalf j h = s.getHalf j h := by
  cases h
  · exact congrArg hiByte (s.setR8_getIx r v j)
  · exact congrArg loByte (s.setR8_getIx r v j)

@[simp] theorem State.setHalf_getR8 (s : State) (j : IdxReg) (h : Half) (v : Byte) (r : Reg8) :
    (s.setHalf j h v).getR8 r = s.getR8 r := by
  cases h <;> cases j <;> rfl

theorem State.setHalf_frame (s : State) (j : IdxReg) (h : Half) (v : Byte) :
    s.setHalf j h v = { s with ix := (s.setHalf j h v).ix, iy := (s.setHalf j h v).iy } := by
  cases h <;> cases j <;> rfl

theorem State.getX_eq (s : State) (j : IdxReg) (x : RegX) : s.getX j x = x.target.elim s.getR8 (s.getHalf j) := by
  cases x <;> rfl

theorem State.setX_eq (s : State) (j : IdxReg) (x : RegX) (v : Byte) :
    s.setX j x v = x.target.elim (s.setR8 · v) (s.setHalf j · v) := by
  cases x <;> rfl

theorem State.setX_getX_other (s : State) (j : IdxReg) (x y : RegX) (v : Byte) (hy : y ≠ x) :
    (s.setX j x v).getX j y = s.getX j y := by
  have ht : y.target ≠ x.target := RegX.target_injective.ne hy
  rw [State.getX_eq, State.getX_eq, State.setX_eq]
  cases hx : x.target with
  | inl r =>
    cases hq : y.target with
    | inl q => exact s.setR8_getR8_other r q v fun h => ht (by rw [hx, hq, h])
    | inr g => exact s.setR8_getHalf r v j g
  | inr h =>
    cases hq : y.target with
    | inl q => exact s.setHalf_getR8 j h v q
    | inr g => exact s.setHalf_getHalf_other j h g v fun hg => ht (by rw [hx, hq, hg])

/-- H, L, F, the other index register and the rest of the state are out of reach of the mapped registers. -/
theorem State.setX_frame (s t : State) (j : IdxReg) (x : RegX) (v : Byte) (h : t = s.setX j x v) :
    t.main.h = s.main.h ∧ t.main.l = s.main.l ∧ t.main.f = s.main.f ∧ (∀ k, k ≠ j → t.getIx k = s.getIx k) ∧
      t = { s with main := t.main, ix := t.ix, iy := t.iy } := by
  rw [State.setX_eq] at h
  cases hx : x.target with
  | inl r =>
    obtain ⟨hh, hl⟩ := RegX.ne_of_target hx
    obtain rfl : t = s.setR8 r v := by rw [h, hx]; rfl
    refine ⟨s.setR8_getR8_other r .h v hh.symm, s.setR8_getR8_other r .l v hl.symm, s.setR8_f r v,
      fun k _ => s.setR8_getIx r v k, ?_⟩
    rw [s.setR8_ix, s.setR8_iy]
    exact s.setR8_frame r v
  | inr g =>
    obtain rfl : t = s.setHalf j g v := by rw [h, hx]; rfl
    refine ⟨s.setHalf_getR8 j g v .h, s.setHalf_getR8 j g v .l, congrArg Bank.f (s.setHalf_main j g v),
      fun k hk => s.setHalf_getIx_other j k g v hk, ?_⟩
    rw [s.setHalf_main]
    exact s.setHalf_frame j g v

/-- A write of a plain register reaches that register only (10_state.md R22). -/
theorem State.setR8_only (s : State) (r : Reg8) (v : Byte) :
    (s.setR8 r v).getR8 r = v ∧ (∀ q, q ≠ r → (s.setR8 r v).getR8 q = s.getR8 q) ∧
      (s.setR8 r v).main.f = s.main.f ∧ s.setR8 r v = { s with main := (s.setR8 r v).main } :=
  ⟨s.setR8_getR8 r v, fun q hq => s.setR8_getR8_other r q v hq, s.setR8_f r v, s.setR8_frame r v⟩

/-- Settles O26: each form is one register write. -/
theorem loadRegister : Obligations.LoadRegister := by
  intro s
  exact ⟨fun r r' => ⟨_, rfl, s.setR8_only r (s.getR8 r')⟩, fun r n => ⟨_, rfl, s.setR8_only r n⟩,
    fun j x x' => ⟨_, rfl, s.setX_getX j x _, fun y hy => s.setX_getX_other j x y _ hy, s.setX_frame _ j x _ rfl⟩,
    fun j h n => ⟨_, rfl, s.setHalf_getHalf j h n, fun g hg => s.setHalf_getHalf_other j h g n hg,
      fun k hk => s.setHalf_getIx_other j k h n hk, s.setHalf_frame j h n⟩⟩

/-! ## Loads from and stores to memory (R201, R202, R204 to R210) -/

/-- An instruction that is one `withByte` reads the byte inside memory and faults outside (decision D3). -/
theorem readsByte_of_exec {i : Instr} {s : State} {a : Word} {k : Byte → State} (h : exec i s = s.withByte a k) :
    ReadsByte i s a k := by
  unfold ReadsByte
  rw [h]
  split
  case isTrue ha => exact (s.withByte_next _ a k).2 ⟨(s.byteOk_iff a).2 ha, rfl⟩
  case isFalse ha => rw [State.withByte, s.memRead8_eq_error a ha]

/-- An instruction that is one `storeByte` stores the byte inside memory and faults outside (decision D3). -/
theorem writesByte_of_exec {i : Instr} {s : State} {a : Word} {v : Byte} (hw : s.mem.wf = true)
    (h : exec i s = s.storeByte a v) : WritesByte i s a v := by
  unfold WritesByte
  rw [h]
  split
  case isTrue ha =>
    have ht := (s.memWrite8_ok a v _).2 ⟨(s.byteOk_iff a).2 ha, rfl⟩
    exact ⟨_, (toResult_next _ _).2 ht, s.memWrite8_stores _ a v hw ht⟩
  case isFalse ha => rw [State.storeByte, s.memWrite8_eq_error a v ha, toResult]

/-- Settles O27: each form is one `withByte`. -/
theorem loadFromMemory : Obligations.LoadFromMemory := fun _ =>
  ⟨fun _ => readsByte_of_exec rfl, fun _ _ _ => readsByte_of_exec rfl, fun _ => readsByte_of_exec rfl⟩

/-- Settles O28: two forms are one `withByte` each, and two are one `storeByte` each. -/
theorem loadAIndirect : Obligations.LoadAIndirect := fun _ hw =>
  ⟨readsByte_of_exec rfl, readsByte_of_exec rfl, writesByte_of_exec hw rfl, writesByte_of_exec hw rfl⟩

/-- Settles O30: each form is one `storeByte`. -/
theorem storeByte : Obligations.StoreByte := fun _ hw =>
  ⟨fun _ => writesByte_of_exec hw rfl, fun _ _ _ => writesByte_of_exec hw rfl, fun _ => writesByte_of_exec hw rfl,
    fun _ _ _ => writesByte_of_exec hw rfl, fun _ => writesByte_of_exec hw rfl⟩

/-! ## `LD A,I` (R211) -/

/-- A byte under a mask of one bit is that bit in its place. -/
theorem and_twoPow_eq_flagIf (b : Byte) (i : Nat) :
    b &&& BitVec.twoPow 8 i = flagIf (b.getLsbD i) (BitVec.twoPow 8 i) :=
  BitVec.and_twoPow b i

theorem and_sMask (b : Byte) : b &&& sMask = flagIf (b.getLsbD 7) sMask := and_twoPow_eq_flagIf b 7
theorem and_yMask (b : Byte) : b &&& yMask = flagIf (b.getLsbD 5) yMask := and_twoPow_eq_flagIf b 5
theorem and_xMask (b : Byte) : b &&& xMask = flagIf (b.getLsbD 3) xMask := and_twoPow_eq_flagIf b 3
theorem and_cMask (b : Byte) : b &&& cMask = flagIf (b.getLsbD 0) cMask := and_twoPow_eq_flagIf b 0

/-- The table `sz` as its four flags (41_flag_tables.md R161): a zero byte has no S for Z to replace. -/
theorem sz_eq_flags (b : Byte) :
    sz b = flagIf (b.getLsbD 7) sMask ||| flagIf (b = 0) zMask ||| flagIf (b.getLsbD 5) yMask |||
      flagIf (b.getLsbD 3) xMask := by
  have hsz : (if b = 0 then zMask else b &&& sMask) = flagIf (b.getLsbD 7) sMask ||| flagIf (b = 0) zMask := by
    by_cases hb : b = 0
    · simp [hb]
    · rw [if_neg hb, and_sMask, decide_eq_false hb, flagIf_false]
      exact BitVec.or_zero.symm
  have hyx : b &&& yxMask = flagIf (b.getLsbD 5) yMask ||| flagIf (b.getLsbD 3) xMask := by
    rw [yxMask, BitVec.and_or_distrib_left, and_yMask, and_xMask]
  rw [sz, hsz, hyx, ← BitVec.or_assoc]

/-- F from a result: the table `sz`, and the other four flags as masks. -/
theorem resultFlags_eq_sz (new : Byte) (h pv n c : Bool) :
    resultFlags new h pv n c =
      sz new ||| flagIf h hMask ||| flagIf pv vMask ||| flagIf n nMask ||| flagIf c cMask := by
  rw [sz_eq_flags]
  simp only [resultFlags, flagByte, sMask, zMask, yMask, hMask, xMask, vMask, nMask, cMask]
  ac_rfl

theorem ldAIFlags_eq_resultFlags (f new : Byte) :
    ldAIFlags f new = resultFlags new false false false (f.getLsbD 0) := by
  rw [resultFlags_eq_sz, ldAIFlags, and_cMask, BitVec.or_comm]
  simp

/-- Settles O29: the flags of decision D16 are the table `sz` with C kept. -/
theorem loadAFromI : Obligations.LoadAFromI := by
  intro s
  rw [exec_ldAI, execLdAI, ldAIFlags_eq_resultFlags]
  rfl

end Sys2Proof.Machine
end

section
/-! The 16-bit loads, the exchanges and the stack (43_load16_exchange_stack.md). -/

namespace Sys2Proof.Machine

/-! ## Register loads and exchanges (R220, R227, R230 to R232) -/

@[simp] theorem State.setPair_af (s : State) (p : Pair) (v : Word) : (s.setPair p v).af = s.af := by
  cases p <;> rfl

theorem State.setPair_frame (s : State) (p : Pair) (v : Word) :
    s.setPair p v = { s with main := (s.setPair p v).main, sp := (s.setPair p v).sp } := by
  cases p <;> rfl

theorem State.setPairQ_frame (s : State) (q : PairQ) (v : Word) :
    s.setPairQ q v = { s with main := (s.setPairQ q v).main } := by
  cases q <;> rfl

theorem State.setIx_frame (s : State) (j : IdxReg) (v : Word) :
    s.setIx j v = { s with ix := (s.setIx j v).ix, iy := (s.setIx j v).iy } := by
  cases j <;> rfl

theorem State.setDe_joinBytes (s : State) (lo hi : Byte) :
    s.setDe (joinBytes lo hi) = { s with main := { s.main with d := hi, e := lo } } := by
  rw [State.setDe, loByte_joinBytes, hiByte_joinBytes]

theorem State.setHl_joinBytes (s : State) (lo hi : Byte) :
    s.setHl (joinBytes lo hi) = { s with main := { s.main with h := hi, l := lo } } := by
  rw [State.setHl, loByte_joinBytes, hiByte_joinBytes]

/-- Settles O31: the loads of an immediate are `setPair` and `setIx`. -/
theorem loadRegister16 : Obligations.LoadRegister16 := fun s =>
  ⟨fun p nn => ⟨_, rfl, s.setPair_getPair p nn, fun q hq => s.setPair_getPair_other p q nn hq, s.setPair_af p nn,
      s.setPair_frame p nn⟩,
    fun j nn => ⟨_, rfl, s.setIx_getIx j nn, fun k hk => s.setIx_getIx_other j k nn hk, s.setIx_frame j nn⟩,
    rfl, fun _ => rfl⟩

/-- Settles O33: the model writes DE and HL as words, of which the statement names the halves. -/
theorem exchangeRegisters : Obligations.ExchangeRegisters := by
  intro s
  refine ⟨rfl, rfl, ?_⟩
  rw [exec_exDeHl, execExDeHl, State.hl, State.de, State.setDe_joinBytes, State.setHl_joinBytes]

/-! ## Word loads and stores (R221 to R224) -/

/-- A word write inside memory completes, and stores that word only. -/
theorem State.memWrite16_completes (s : State) (a v : Word) (hw : s.mem.wf = true) (ha : s.WordInside a) :
    ∃ t, s.memWrite16 a v = .ok t ∧ StoresWord s t a v := by
  have ht := (s.memWrite16_ok a v _).2 ⟨(s.wordOk_iff a).2 ha, rfl⟩
  exact ⟨_, ht, s.memWrite16_stores _ a v hw ht⟩

/-- An instruction that is one `withWord` reads the word inside memory and faults outside (decision D3). -/
theorem readsWord_of_exec {i : Instr} {s : State} {a : Word} {k : Word → State} (h : exec i s = s.withWord a k) :
    ReadsWord i s a k := by
  unfold ReadsWord
  rw [h]
  split
  case isTrue ha => exact (s.withWord_next _ a k).2 ⟨(s.wordOk_iff a).2 ha, rfl⟩
  case isFalse ha => rw [State.withWord, s.memRead16_eq_error a ha]

/-- An instruction that is one `storeWord` stores the word inside memory and faults outside (decision D3). -/
theorem writesWord_of_exec {i : Instr} {s : State} {a v : Word} (hw : s.mem.wf = true)
    (h : exec i s = s.storeWord a v) : WritesWord i s a v := by
  unfold WritesWord
  rw [h]
  split
  case isTrue ha =>
    obtain ⟨t, ht, hst⟩ := s.memWrite16_completes a v hw ha
    exact ⟨t, (toResult_next _ t).2 ht, hst⟩
  case isFalse ha => rw [State.storeWord, s.memWrite16_eq_error a v ha, toResult]

/-- Settles O32: each load is one `withWord` and each store is one `storeWord`. -/
theorem loadAndStoreWord : Obligations.LoadAndStoreWord := fun _ _ hw =>
  ⟨readsWord_of_exec rfl, fun _ => readsWord_of_exec rfl, fun _ => readsWord_of_exec rfl,
    writesWord_of_exec hw rfl, fun _ => writesWord_of_exec hw rfl, fun _ => writesWord_of_exec hw rfl⟩

/-! ## The stack primitives (R240, R241) -/

theorem State.push16_completes (s : State) (v : Word) (hw : s.mem.wf = true) (ha : s.WordInside (s.sp - 2)) :
    ∃ t, s.push16 v = .ok t ∧ StoresWord { s with sp := s.sp - 2 } t (s.sp - 2) v :=
  State.memWrite16_completes { s with sp := s.sp - 2 } (s.sp - 2) v hw ha

theorem State.push16_eq_error (s : State) (v : Word) (ha : ¬ s.WordInside (s.sp - 2)) :
    s.push16 v = .error (.memoryOutOfRange (s.sp - 2)) :=
  State.memWrite16_eq_error { s with sp := s.sp - 2 } (s.sp - 2) v ha

theorem State.pop16_eq (s : State) (ha : s.WordInside s.sp) :
    s.pop16 = .ok (s.wordAt s.sp, { s with sp := s.sp + 2 }) :=
  (s.pop16_ok _ _).2 ⟨(s.wordOk_iff s.sp).2 ha, rfl, rfl⟩

theorem State.pop16_eq_error (s : State) (ha : ¬ s.WordInside s.sp) :
    s.pop16 = .error (.memoryOutOfRange s.sp) := by
  rw [State.pop16, s.memRead16_eq_error s.sp ha]

/-- Settles O36. -/
theorem stackPrimitives : Obligations.StackPrimitives := fun s v hw =>
  ⟨s.push16_completes v hw, s.push16_eq_error v, s.pop16_eq, s.pop16_eq_error⟩

/-! ## PUSH and POP (R242, R243) -/

section Push
variable {i : Instr} {s : State} {v : Word}

/-- An instruction that is one `push16` stores the word below SP. -/
theorem exec_push_completes (hw : s.mem.wf = true) (ha : s.WordInside (s.sp - 2))
    (h : exec i s = toResult (s.push16 v)) :
    ∃ t, exec i s = .next t ∧ StoresWord { s with sp := s.sp - 2 } t (s.sp - 2) v := by
  obtain ⟨t, ht, hst⟩ := s.push16_completes v hw ha
  exact ⟨t, h.trans ((toResult_next _ t).2 ht), hst⟩

theorem exec_push_eq_fault (ha : ¬ s.WordInside (s.sp - 2)) (h : exec i s = toResult (s.push16 v)) :
    exec i s = .fault (.memoryOutOfRange (s.sp - 2)) := by
  rw [h, s.push16_eq_error v ha, toResult]

end Push

theorem exec_popQq_eq_next (q : PairQ) (s : State) (ha : s.WordInside s.sp) :
    exec (.popQq q) s = .next (State.setPairQ { s with sp := s.sp + 2 } q (s.wordAt s.sp)) :=
  (execPopQq_next q s _).2 ⟨(s.wordOk_iff s.sp).2 ha, rfl⟩

theorem exec_popIx_eq_next (j : IdxReg) (s : State) (ha : s.WordInside s.sp) :
    exec (.popIx j) s = .next (State.setIx { s with sp := s.sp + 2 } j (s.wordAt s.sp)) :=
  (execPopIx_next j s _).2 ⟨(s.wordOk_iff s.sp).2 ha, rfl⟩

theorem exec_popQq_eq_fault (q : PairQ) (s : State) (ha : ¬ s.WordInside s.sp) :
    exec (.popQq q) s = .fault (.memoryOutOfRange s.sp) := by
  rw [exec_popQq, execPopQq, s.pop16_eq_error ha]

theorem exec_popIx_eq_fault (j : IdxReg) (s : State) (ha : ¬ s.WordInside s.sp) :
    exec (.popIx j) s = .fault (.memoryOutOfRange s.sp) := by
  rw [exec_popIx, execPopIx, s.pop16_eq_error ha]

/-- POP writes the pair that `q` names, F with AF (10_state.md R31), and keeps the other pairs. -/
theorem exec_popQq_completes (q : PairQ) (s : State) (ha : s.WordInside s.sp) :
    ∃ t, exec (.popQq q) s = .next t ∧ t.getPairQ q = s.wordAt s.sp ∧
      (∀ p, p ≠ q → t.getPairQ p = s.getPairQ p) ∧ t = { s with main := t.main, sp := s.sp + 2 } :=
  ⟨_, exec_popQq_eq_next q s ha, State.setPairQ_getPairQ _ q _, fun p hp => State.setPairQ_getPairQ_other _ q p _ hp,
    State.setPairQ_frame _ q _⟩

/-- Settles O37: each PUSH is one `push16`, and each POP one `pop16` and one register write. -/
theorem pushAndPop : Obligations.PushAndPop := fun s hw =>
  ⟨fun ha => ⟨fun _ => exec_push_completes hw ha rfl, fun _ => exec_push_completes hw ha rfl⟩,
    fun ha => ⟨fun _ => exec_push_eq_fault ha rfl, fun _ => exec_push_eq_fault ha rfl⟩,
    fun ha => ⟨fun q => exec_popQq_completes q s ha, fun j => exec_popIx_eq_next j s ha⟩,
    fun ha => ⟨fun q => exec_popQq_eq_fault q s ha, fun j => exec_popIx_eq_fault j s ha⟩⟩

/-! ## The exchanges with the stack (R233, decision D22) -/

/-- An update that neither reads nor writes memory can come before a store or after it. -/
theorem StoresWord.map {s t : State} {a v : Word} {f : State → State}
    (hf : ∀ (u : State) (m : Memory), f { u with mem := m } = { f u with mem := m }) (h : StoresWord s t a v) :
    StoresWord (f s) (f t) a v := by
  have hmem : ∀ u, (f u).mem = u.mem := fun u => (congrArg State.mem (hf u u.mem) :)
  have hbyte : ∀ u b, (f u).byteAt b = u.byteAt b := fun u b => congrArg (Memory.get · b.toNat) (hmem u)
  obtain ⟨hframe, hlo, hhi, hother⟩ := h
  refine ⟨?_, ?_, ?_, fun b hb hb' => ?_⟩
  · rw [hmem, ← hf, ← hframe]
  · rw [hbyte, hlo]
  · rw [hbyte, hhi]
  · rw [hbyte, hbyte, hother b hb hb']

theorem exec_exMemSpHl_completes (s : State) (hw : s.mem.wf = true) (ha : s.WordInside s.sp) :
    ∃ t, exec .exMemSpHl s = .next t ∧ StoresWord (s.setHl (s.wordAt s.sp)) t s.sp s.hl := by
  obtain ⟨u, hu, hst⟩ := s.memWrite16_completes s.sp s.hl hw ha
  obtain ⟨hok, rfl⟩ := (s.memWrite16_ok s.sp s.hl u).1 hu
  exact ⟨_, (execExMemSpHl_next s _).2 ⟨hok, rfl⟩, hst.map (f := (State.setHl · _)) fun _ _ => rfl⟩

theorem exec_exMemSpIx_completes (j : IdxReg) (s : State) (hw : s.mem.wf = true) (ha : s.WordInside s.sp) :
    ∃ t, exec (.exMemSpIx j) s = .next t ∧ StoresWord (s.setIx j (s.wordAt s.sp)) t s.sp (s.getIx j) := by
  obtain ⟨u, hu, hst⟩ := s.memWrite16_completes s.sp (s.getIx j) hw ha
  obtain ⟨hok, rfl⟩ := (s.memWrite16_ok s.sp (s.getIx j) u).1 hu
  refine ⟨_, (execExMemSpIx_next j s _).2 ⟨hok, rfl⟩, hst.map (f := (State.setIx · j _)) fun _ _ => ?_⟩
  cases j <;> rfl

theorem exec_exMemSpHl_eq_fault (s : State) (ha : ¬ s.WordInside s.sp) :
    exec .exMemSpHl s = .fault (.memoryOutOfRange s.sp) := by
  rw [exec_exMemSpHl, execExMemSpHl, s.memRead16_eq_error s.sp ha]

theorem exec_exMemSpIx_eq_fault (j : IdxReg) (s : State) (ha : ¬ s.WordInside s.sp) :
    exec (.exMemSpIx j) s = .fault (.memoryOutOfRange s.sp) := by
  rw [exec_exMemSpIx, execExMemSpIx, s.memRead16_eq_error s.sp ha]

/-- Settles O35: outside memory the read, which comes first (decision D22), faults. -/
theorem exchangeWithStack : Obligations.ExchangeWithStack := by
  refine fun s hw => ⟨fun ha => ⟨?_, fun j => exec_exMemSpIx_completes j s hw ha⟩,
    fun ha => ⟨exec_exMemSpHl_eq_fault s ha, fun j => exec_exMemSpIx_eq_fault j s ha⟩⟩
  rw [← State.setHl_joinBytes]
  exact exec_exMemSpHl_completes s hw ha

end Sys2Proof.Machine
end

section
/-! The flag rules of 44_alu8.md: what the tables and masks give is F computed from the operands. -/

namespace Sys2Proof.Machine

/-! ## Results -/

@[simp] theorem carryByte_toNat (c : Bool) : (carryByte c).toNat = c.toNat := by cases c <;> rfl

theorem and_0x0F_toNat (b : Byte) : (b &&& 0x0F).toNat = b.toNat % 16 :=
  (BitVec.toNat_and ..).trans (Nat.and_two_pow_sub_one_eq_mod b.toNat 4)

theorem and_0x0F_eq (b n : Byte) : (b &&& 0x0F = n) = (b.toNat % 16 = n.toNat) := by
  rw [← and_0x0F_toNat, BitVec.toNat_inj]

theorem add8_false (a v : Byte) : add8 a v false = a + v := BitVec.add_zero _
theorem sub8_false (a v : Byte) : sub8 a v false = a - v := BitVec.sub_zero _

theorem add8_eq_ofNat (a v : Byte) (c : Bool) : add8 a v c = BitVec.ofNat 8 (a.toNat + v.toNat + c.toNat) := by
  apply BitVec.eq_of_toNat_eq
  simp [add8]

theorem add8_toNat (a v : Byte) (c : Bool) : (add8 a v c).toNat = (a.toNat + v.toNat + c.toNat) % 256 := by
  rw [add8_eq_ofNat, BitVec.toNat_ofNat]

theorem sub8_eq_ofInt (a v : Byte) (c : Bool) : sub8 a v c = BitVec.ofInt 8 (a.toNat - v.toNat - c.toNat) := by
  rw [← carryByte_toNat, Int.sub_eq_add_neg, Int.sub_eq_add_neg]
  simp only [BitVec.ofInt_add, BitVec.ofInt_neg, BitVec.ofInt_natCast, BitVec.ofNat_toNat, BitVec.setWidth_eq,
    ← BitVec.sub_eq_add_neg, sub8]

theorem sub8_toNat (a v : Byte) (c : Bool) :
    ((sub8 a v c).toNat : Int) = (a.toNat - v.toNat - c.toNat) % 256 := by
  rw [sub8_eq_ofInt, BitVec.toNat_ofInt]
  omega

/-! ## Carries, borrows and overflow -/

theorem decide_le_or_lt (c : Bool) (x y : Byte) :
    (if c then decide (x ≤ y) else decide (x < y)) = decide (x.toNat < y.toNat + c.toNat) := by
  cases c
  · exact decide_eq_decide.2 Iff.rfl
  · exact decide_eq_decide.2 Nat.lt_succ_iff.symm

/-- A sum is below its first summand exactly when it has wrapped. -/
theorem add8_carry (a v : Byte) (c : Bool) :
    (if c then decide (add8 a v c ≤ a) else decide (add8 a v c < a)) = decide (255 < a.toNat + v.toNat + c.toNat) := by
  rw [decide_le_or_lt, add8_toNat, decide_eq_decide]
  have := a.isLt
  have := v.isLt
  have := c.toNat_le
  omega

theorem add8_halfCarry (a v : Byte) (c : Bool) :
    (if c then decide (add8 a v c &&& 0x0F ≤ a &&& 0x0F) else decide (add8 a v c &&& 0x0F < a &&& 0x0F)) =
      decide (15 < a.toNat % 16 + v.toNat % 16 + c.toNat) := by
  rw [decide_le_or_lt, and_0x0F_toNat, and_0x0F_toNat, add8_toNat, decide_eq_decide]
  have := c.toNat_le
  omega

theorem sub8_borrow (a v : Byte) (c : Bool) :
    (if c then decide (a ≤ sub8 a v c) else decide (a < sub8 a v c)) = decide (a.toNat < v.toNat + c.toNat) := by
  have := sub8_toNat a v c
  rw [decide_le_or_lt, decide_eq_decide]
  have := a.isLt
  have := v.isLt
  have := c.toNat_le
  omega

theorem sub8_halfBorrow (a v : Byte) (c : Bool) :
    (if c then decide (a &&& 0x0F ≤ sub8 a v c &&& 0x0F) else decide (a &&& 0x0F < sub8 a v c &&& 0x0F)) =
      decide (a.toNat % 16 < v.toNat % 16 + c.toNat) := by
  have := sub8_toNat a v c
  rw [decide_le_or_lt, and_0x0F_toNat, and_0x0F_toNat, decide_eq_decide]
  have := c.toNat_le
  omega

/-- The operand recovered from operand and result is the one added (41_flag_tables.md R168). -/
theorem overflowAdd_add8 (a v : Byte) (c : Bool) :
    overflowAdd c a (add8 a v c) =
      (decide (a.toInt + v.toInt + c.toNat < -128) || decide (127 < a.toInt + v.toInt + c.toNat)) := by
  have hv : add8 a v c - a - carryByte c = v := by
    rw [add8]
    grind
  rw [overflowAdd, hv, carryByte_toNat]

theorem overflowSub_sub8 (a v : Byte) (c : Bool) :
    overflowSub c a (sub8 a v c) =
      (decide (a.toInt - v.toInt - c.toNat < -128) || decide (127 < a.toInt - v.toInt - c.toNat)) := by
  have hv : a - sub8 a v c - carryByte c = v := by
    rw [sub8]
    grind
  rw [overflowSub, hv, carryByte_toNat]

/-! ## The masks (10_state.md R30) -/

theorem and_zMask (b : Byte) : b &&& zMask = flagIf (b.getLsbD 6) zMask := and_twoPow_eq_flagIf b 6
theorem and_hMask (b : Byte) : b &&& hMask = flagIf (b.getLsbD 4) hMask := and_twoPow_eq_flagIf b 4
theorem and_vMask (b : Byte) : b &&& vMask = flagIf (b.getLsbD 2) vMask := and_twoPow_eq_flagIf b 2
theorem and_nMask (b : Byte) : b &&& nMask = flagIf (b.getLsbD 1) nMask := and_twoPow_eq_flagIf b 1

theorem and_yxMask (b : Byte) : b &&& yxMask = flagIf (b.getLsbD 5) yMask ||| flagIf (b.getLsbD 3) xMask := by
  rw [yxMask, BitVec.and_or_distrib_left, and_yMask, and_xMask]

theorem flagIf_or_flagIf (p q : Bool) (m : Byte) : flagIf p m ||| flagIf q m = flagIf (p || q) m := by
  cases p <;> cases q <;> simp

theorem flagByte_eq_masks (s z y h x pv n c : Bool) :
    flagByte s z y h x pv n c =
      flagIf s sMask ||| flagIf z zMask ||| flagIf y yMask ||| flagIf h hMask ||| flagIf x xMask |||
        flagIf pv vMask ||| flagIf n nMask ||| flagIf c cMask := rfl

/-- Y and X cleared and taken from elsewhere, as CP does (44_alu8.md R257). -/
theorem flagByte_replace_yx (s z y h x pv n c y' x' : Bool) :
    flagByte s z y h x pv n c &&& ~~~yxMask ||| (flagIf y' yMask ||| flagIf x' xMask) =
      flagByte s z y' h x' pv n c := by
  decide +revert +kernel

theorem flagByte_h (s z y h x pv n c : Bool) : (flagByte s z y h x pv n c).getLsbD 4 = h := by
  simp only [flagByte, BitVec.getLsbD_or, getLsbD_flagIf]
  simp

theorem flagByte_n (s z y h x pv n c : Bool) : (flagByte s z y h x pv n c).getLsbD 1 = n := by
  simp only [flagByte, BitVec.getLsbD_or, getLsbD_flagIf]
  simp

theorem flagByte_c (s z y h x pv n c : Bool) : (flagByte s z y h x pv n c).getLsbD 0 = c := by
  simp only [flagByte, BitVec.getLsbD_or, getLsbD_flagIf]
  simp

/-! ## The flag rules as flags computed from the operands (41_flag_tables.md R169) -/

theorem szhvcAdd_eq_sumFlags (a v : Byte) (c : Bool) : szhvcAdd c a (add8 a v c) = sumFlags a v c := by
  rw [szhvcAdd, add8_carry, add8_halfCarry, overflowAdd_add8, sumFlags, resultFlags_eq_sz, ← add8_eq_ofNat]
  simp only [flagIf_false]
  ac_rfl

theorem szhvcSub_eq_differenceFlags (a v : Byte) (c : Bool) :
    szhvcSub c a (sub8 a v c) = differenceFlags a v c := by
  rw [szhvcSub, sub8_borrow, sub8_halfBorrow, overflowSub_sub8, differenceFlags, resultFlags_eq_sz, ← sub8_eq_ofInt]
  simp only [flagIf_true]
  ac_rfl

theorem evenParity_eq (b : Byte) : evenParity b = decide (popcount b % 2 = 0) := by
  have h : (List.range 8).countP (fun k => b.getLsbD k) = popcount b := by
    simp only [List.range, List.range.loop, List.countP_cons, List.countP_nil, popcount, Bool.toNat,
      Bool.cond_eq_ite]
    ac_rfl
  rw [evenParity, h]

theorem szp_eq_resultFlags (new : Byte) : szp new = resultFlags new false (evenParity new) false false := by
  rw [szp, resultFlags_eq_sz, evenParity_eq]
  simp

theorem incFlags_eq_resultFlags (f new : Byte) :
    incFlags f new = resultFlags new (new.toNat % 16 = 0) (new = 0x80) false (f.getLsbD 0) := by
  have h : (new &&& 0x0F = 0) = (new.toNat % 16 = 0) := and_0x0F_eq new 0
  rw [incFlags, szhvInc, and_cMask, resultFlags_eq_sz]
  simp only [flagIf_false, h]
  ac_rfl

theorem decFlags_eq_resultFlags (f new : Byte) :
    decFlags f new = resultFlags new (new.toNat % 16 = 15) (new = 0x7F) true (f.getLsbD 0) := by
  have h : (new &&& 0x0F = 0x0F) = (new.toNat % 16 = 15) := and_0x0F_eq new 0x0F
  rw [decFlags, szhvDec, and_cMask, resultFlags_eq_sz]
  simp only [flagIf_true, h]
  ac_rfl

theorem cpFlags_eq_flagByte (a v : Byte) :
    cpFlags a v =
      flagByte ((a - v).getLsbD 7) (a = v) (v.getLsbD 5) (a.toNat % 16 < v.toNat % 16) (v.getLsbD 3)
        (a.toInt - v.toInt < -128 || 127 < a.toInt - v.toInt) true (a.toNat < v.toNat) := by
  have hz : (a - v = 0) = (a = v) := propext sub_eq_zero
  have hd : BitVec.ofInt 8 (a.toNat - v.toNat - false.toNat) = a - v := by rw [← sub8_eq_ofInt, sub8_false]
  rw [cpFlags, szhvcSub_eq_differenceFlags, and_yxMask, differenceFlags, resultFlags, hd, flagByte_replace_yx]
  simp only [hz, Bool.toNat_false, Nat.add_zero, Nat.cast_zero, sub_zero]

theorem cplFlags_eq_flagByte (f new : Byte) :
    cplFlags f new =
      flagByte (f.getLsbD 7) (f.getLsbD 6) (new.getLsbD 5) true (new.getLsbD 3) (f.getLsbD 2) true (f.getLsbD 0) := by
  simp only [cplFlags, flagByte_eq_masks, BitVec.and_or_distrib_left, and_sMask, and_zMask, and_vMask, and_cMask,
    and_yxMask, flagIf_true]
  ac_rfl

theorem scfFlags_eq_flagByte (a f : Byte) :
    scfFlags a f =
      flagByte (f.getLsbD 7) (f.getLsbD 6) (a.getLsbD 5) false (a.getLsbD 3) (f.getLsbD 2) false true := by
  simp only [scfFlags, flagByte_eq_masks, BitVec.and_or_distrib_left, and_sMask, and_zMask, and_vMask,
    and_yxMask, flagIf_true, flagIf_false]
  ac_rfl

theorem ccfFlags_eq_flagByte (a f : Byte) :
    ccfFlags a f =
      flagByte (f.getLsbD 7) (f.getLsbD 6) (a.getLsbD 5) (f.getLsbD 0) (a.getLsbD 3) (f.getLsbD 2) false
        (!f.getLsbD 0) := by
  simp only [ccfFlags, flagByte_eq_masks, BitVec.and_or_distrib_left, and_sMask, and_zMask, and_vMask,
    and_yxMask, flagIf_false]
  ac_rfl

theorem daaFlags_eq_resultFlags (a f : Byte) :
    daaFlags a f =
      resultFlags (daaResult a f) (a.getLsbD 4 != (daaResult a f).getLsbD 4) (evenParity (daaResult a f)) (f.getLsbD 1)
        (f.getLsbD 0 || 0x99 < a.toNat) := by
  have hh : (a ^^^ daaResult a f).getLsbD 4 = (a.getLsbD 4 != (daaResult a f).getLsbD 4) := BitVec.getLsbD_xor
  have hc : decide (0x99 < a) = decide (0x99 < a.toNat) := rfl
  rw [daaFlags, resultFlags_eq_sz, ← flagIf_or_flagIf, BitVec.and_or_distrib_left, and_cMask, and_nMask, and_hMask,
    hh, hc, szp, ← evenParity_eq]
  ac_rfl

/-! ## `DAA` (R270) -/

/-- The amount by which DAA corrects A, from A, H and C before it. -/
def daaCorrection (a : Byte) (h c : Bool) : Int :=
  (if h = true ∨ 9 < a.toNat % 16 then 0x06 else 0) + (if c = true ∨ 0x99 < a.toNat then 0x60 else 0)

theorem daaResult_eq_ofInt (a f : Byte) :
    daaResult a f =
      BitVec.ofInt 8 (if f.getLsbD 1 then a.toNat - daaCorrection a (f.getLsbD 4) (f.getLsbD 0)
        else a.toNat + daaCorrection a (f.getLsbD 4) (f.getLsbD 0)) := by
  have hadjust : (if f.getLsbD 4 || 9 < a &&& 0x0F then (0x06 : Byte) else 0) +
      (if f.getLsbD 0 || 0x99 < a then 0x60 else 0) =
      BitVec.ofInt 8 (daaCorrection a (f.getLsbD 4) (f.getLsbD 0)) := by
    simp only [daaCorrection, BitVec.ofInt_add, apply_ite (BitVec.ofInt 8), Bool.or_eq_true, decide_eq_true_eq,
      BitVec.lt_def, and_0x0F_toNat]
    rfl
  have ha : BitVec.ofInt 8 a.toNat = a := by rw [BitVec.ofInt_natCast, BitVec.ofNat_toNat, BitVec.setWidth_eq]
  simp only [daaResult]
  rw [hadjust]
  split
  · rw [Int.sub_eq_add_neg, BitVec.ofInt_add, BitVec.ofInt_neg, ha, BitVec.sub_eq_add_neg]
  · rw [BitVec.ofInt_add, ha]

end Sys2Proof.Machine
end

section
/-! The 8-bit arithmetic and logic (44_alu8.md). -/

namespace Sys2Proof.Machine

/-! ## The accumulator operations in the five operand forms of R258 -/

/-- Five instructions that run one operation on their operand, which `exec` shows by unfolding, are the forms of its
effect; the memory forms fault outside memory (decision D3). -/
theorem aluForms_of_exec {reg : Reg8 → Instr} {memHl : Instr} {imm : Byte → Instr} {half : IdxReg → Half → Instr}
    {memIx : IdxReg → Byte → Instr} {op effect : State → Byte → State} (heffect : ∀ s v, op s v = effect s v)
    (hreg : ∀ r s, exec (reg r) s = .next (op s (s.getR8 r)) := by intros; rfl)
    (hmemHl : ∀ s, exec memHl s = s.withByte s.hl (op s) := by intros; rfl)
    (himm : ∀ n s, exec (imm n) s = .next (op s n) := by intros; rfl)
    (hhalf : ∀ j h s, exec (half j h) s = .next (op s (s.getHalf j h)) := by intros; rfl)
    (hmemIx : ∀ j d s, exec (memIx j d) s = s.withByte (s.ea j d) (op s) := by intros; rfl) :
    AluForms reg memHl imm half memIx effect := by
  obtain rfl : op = effect := funext₂ heffect
  exact fun s => ⟨(hreg · s), readsByte_of_exec (hmemHl s), (himm · s), (hhalf · · s),
    fun j d => readsByte_of_exec (hmemIx j d s)⟩

theorem State.aluAdd_eq (s : State) (v : Byte) :
    s.aluAdd v = { s with main := { s.main with a := s.main.a + v, f := sumFlags s.main.a v false } } := by
  rw [State.aluAdd, szhvcAdd_eq_sumFlags, add8_false]
  rfl

theorem State.aluAdc_eq (s : State) (v : Byte) :
    s.aluAdc v =
      { s with
        main := { s.main with
          a := BitVec.ofNat 8 (s.main.a.toNat + v.toNat + s.flagC.toNat), f := sumFlags s.main.a v s.flagC } } := by
  rw [State.aluAdc, szhvcAdd_eq_sumFlags, add8_eq_ofNat]
  rfl

theorem State.aluSub_eq (s : State) (v : Byte) :
    s.aluSub v = { s with main := { s.main with a := s.main.a - v, f := differenceFlags s.main.a v false } } := by
  rw [State.aluSub, szhvcSub_eq_differenceFlags, sub8_false]
  rfl

theorem State.aluSbc_eq (s : State) (v : Byte) :
    s.aluSbc v =
      { s with
        main := { s.main with
          a := BitVec.ofInt 8 (s.main.a.toNat - v.toNat - s.flagC.toNat)
          f := differenceFlags s.main.a v s.flagC } } := by
  rw [State.aluSbc, szhvcSub_eq_differenceFlags, sub8_eq_ofInt]
  rfl

theorem szp_eq_logicFlags (new : Byte) : szp new = logicFlags new false := szp_eq_resultFlags new

theorem szp_or_hMask_eq_logicFlags (new : Byte) : szp new ||| hMask = logicFlags new true := by
  rw [szp_eq_resultFlags, logicFlags, resultFlags_eq_sz, resultFlags_eq_sz]
  simp only [flagIf_false, flagIf_true]
  ac_rfl

theorem State.aluAnd_eq (s : State) (v : Byte) :
    s.aluAnd v =
      { s with main := { s.main with a := s.main.a &&& v, f := logicFlags (s.main.a &&& v) true } } := by
  rw [State.aluAnd, szp_or_hMask_eq_logicFlags]
  rfl

theorem State.aluXor_eq (s : State) (v : Byte) :
    s.aluXor v =
      { s with main := { s.main with a := s.main.a ^^^ v, f := logicFlags (s.main.a ^^^ v) false } } := by
  rw [State.aluXor, szp_eq_logicFlags]
  rfl

theorem State.aluOr_eq (s : State) (v : Byte) :
    s.aluOr v =
      { s with main := { s.main with a := s.main.a ||| v, f := logicFlags (s.main.a ||| v) false } } := by
  rw [State.aluOr, szp_eq_logicFlags]
  rfl

theorem State.aluCp_eq (s : State) (v : Byte) :
    s.aluCp v =
      { s with
        main := { s.main with
          f := flagByte ((s.main.a - v).getLsbD 7) (s.main.a = v) (v.getLsbD 5)
            (s.main.a.toNat % 16 < v.toNat % 16) (v.getLsbD 3)
            (s.main.a.toInt - v.toInt < -128 || 127 < s.main.a.toInt - v.toInt) true
            (s.main.a.toNat < v.toNat) } } := by
  rw [State.aluCp, cpFlags_eq_flagByte]
  rfl

/-- Settles O38: the index of the flag table determines the operands, so its entry is F of the operands. -/
theorem addAndAdc : Obligations.AddAndAdc := ⟨aluForms_of_exec State.aluAdd_eq, aluForms_of_exec State.aluAdc_eq⟩

/-- Settles O39, with the table of differences as O38 with that of sums. -/
theorem subAndSbc : Obligations.SubAndSbc := ⟨aluForms_of_exec State.aluSub_eq, aluForms_of_exec State.aluSbc_eq⟩

/-- Settles O40: the table `szp` is F of the result but for H. -/
theorem logicOperations : Obligations.LogicOperations :=
  ⟨aluForms_of_exec State.aluAnd_eq, aluForms_of_exec State.aluXor_eq, aluForms_of_exec State.aluOr_eq⟩

/-- Settles O41: F is that of SUB with Y and X replaced. -/
theorem compare : Obligations.Compare := aluForms_of_exec State.aluCp_eq

/-! ## INC and DEC (R260, R261) -/

/-- An instruction that is one `modifyByte` replaces the byte inside memory and faults outside (decision D3). -/
theorem modifiesByte_of_exec {i : Instr} {s : State} {a : Word} {new flags flags' : Byte → Byte} (hw : s.mem.wf = true)
    (hflags : ∀ v, flags v = flags' v) (h : exec i s = s.modifyByte a new flags) : ModifiesByte i s a new flags' := by
  obtain rfl : flags = flags' := funext hflags
  unfold ModifiesByte
  rw [h]
  split
  case isTrue ha =>
    have hok := (s.byteOk_iff a).2 ha
    obtain ⟨-, hv, hother⟩ := s.memWrite8_stores _ a (new (s.byteAt a)) hw ((s.memWrite8_ok a _ _).2 ⟨hok, rfl⟩)
    exact ⟨_, (s.modifyByte_next _ a new flags).2 ⟨hok, rfl⟩, rfl, hv, hother⟩
  case isFalse ha => rw [State.modifyByte, s.memRead8_eq_error a ha]

/-- A write of a plain register and of F reaches those two only. -/
theorem State.setR8_setF_only (s : State) (r : Reg8) (v : Byte) {f f' : Byte} (hf : f = f') :
    let t := (s.setR8 r v).setF f
    t.getR8 r = v ∧ t.main.f = f' ∧ (∀ q, q ≠ r → t.getR8 q = s.getR8 q) ∧ t = { s with main := t.main } := by
  obtain ⟨hv, hother, -, hframe⟩ := s.setR8_only r v
  refine ⟨?_, hf, fun q hq => ?_, congrArg (State.setF · f) hframe⟩
  · rw [State.setF_getR8, hv]
  · rw [State.setF_getR8, hother q hq]

@[simp] theorem State.setF_getIx (s : State) (v : Byte) (j : IdxReg) : (s.setF v).getIx j = s.getIx j := by
  cases j <;> rfl

@[simp] theorem State.setF_getHalf (s : State) (v : Byte) (j : IdxReg) (h : Half) :
    (s.setF v).getHalf j h = s.getHalf j h := by
  cases h
  · exact congrArg hiByte (s.setF_getIx v j)
  · exact congrArg loByte (s.setF_getIx v j)

/-- A write of an index half and of F reaches those two only. -/
theorem State.setHalf_setF_only (s : State) (j : IdxReg) (h : Half) (v : Byte) {f f' : Byte} (hf : f = f') :
    let t := (s.setHalf j h v).setF f
    t.getHalf j h = v ∧ (∀ g, g ≠ h → t.getHalf j g = s.getHalf j g) ∧ (∀ k, k ≠ j → t.getIx k = s.getIx k) ∧
      t = { s with main := { s.main with f := f' }, ix := t.ix, iy := t.iy } := by
  subst hf
  refine ⟨?_, fun g hg => ?_, fun k hk => ?_, congrArg (State.setF · f) (s.setHalf_frame j h v)⟩
  · rw [State.setF_getHalf, State.setHalf_getHalf]
  · rw [State.setF_getHalf, s.setHalf_getHalf_other j h g v hg]
  · rw [State.setF_getIx, s.setHalf_getIx_other j k h v hk]

/-- Settles O42: each register form is one register write and one write of F, each memory form one `modifyByte`. -/
theorem incrementAndDecrement : Obligations.IncrementAndDecrement := by
  intro s hw up down
  have hup : ∀ v, incFlags s.main.f (v + 1) = up v := fun v => incFlags_eq_resultFlags s.main.f (v + 1)
  have hdown : ∀ v, decFlags s.main.f (v - 1) = down v := fun v => decFlags_eq_resultFlags s.main.f (v - 1)
  exact ⟨fun r => ⟨_, rfl, s.setR8_setF_only r _ (hup _)⟩, fun r => ⟨_, rfl, s.setR8_setF_only r _ (hdown _)⟩,
    fun j h => ⟨_, rfl, s.setHalf_setF_only j h _ (hup _)⟩, fun j h => ⟨_, rfl, s.setHalf_setF_only j h _ (hdown _)⟩,
    modifiesByte_of_exec hw hup rfl, modifiesByte_of_exec hw hdown rfl,
    fun _ _ => modifiesByte_of_exec hw hup rfl, fun _ _ => modifiesByte_of_exec hw hdown rfl⟩

/-! ## The adjustments (R270 to R274) -/

theorem exec_daa_eq (s : State) :
    let t := daaResult s.main.a s.main.f
    exec .daa s =
      .next { s with
        main := { s.main with
          a := t
          f := resultFlags t (s.main.a.getLsbD 4 != t.getLsbD 4) (evenParity t) s.flagN
            (s.flagC || 0x99 < s.main.a.toNat) } } := by
  rw [exec_daa, execDaa, daaFlags_eq_resultFlags]
  rfl

/-- Settles O43: each new F, built by masks, is the byte of its eight flags. -/
theorem accumulatorAdjustments : Obligations.AccumulatorAdjustments := by
  intro s a low high t
  have ht : daaResult a s.main.f = t := daaResult_eq_ofInt a s.main.f
  have hcpl : a ^^^ 0xFF = ~~~a := BitVec.xor_allOnes
  have hneg : (0 : Byte) - a = -a := BitVec.zero_sub a
  refine ⟨?_, ?_, ?_, ?_, ?_⟩
  · rw [← ht]
    exact exec_daa_eq s
  · rw [exec_cpl, execCpl, hcpl, cplFlags_eq_flagByte, BitVec.getLsbD_not, BitVec.getLsbD_not]
    rfl
  · rw [exec_neg, execNeg, szhvcSub_eq_differenceFlags, sub8_false, hneg]
    rfl
  · rw [exec_scf, execScf, scfFlags_eq_flagByte]
    rfl
  · rw [exec_ccf, execCcf, ccfFlags_eq_flagByte]
    rfl

/-! ## The decimal law of DAA (R275) -/

/-- A two-digit decimal number in packed BCD. -/
def packedBcd (k : Nat) : Byte := BitVec.ofNat 8 (k / 10 * 16 + k % 10)

theorem packedBcd_toNat {k : Nat} (hk : k < 100) : (packedBcd k).toNat = k / 10 * 16 + k % 10 := by
  rw [packedBcd, BitVec.toNat_ofNat]
  omega

theorem sumFlags_h (a v : Byte) (c : Bool) :
    (sumFlags a v c).getLsbD 4 = decide (15 < a.toNat % 16 + v.toNat % 16 + c.toNat) := flagByte_h ..
theorem sumFlags_n (a v : Byte) (c : Bool) : (sumFlags a v c).getLsbD 1 = false := flagByte_n ..
theorem sumFlags_c (a v : Byte) (c : Bool) :
    (sumFlags a v c).getLsbD 0 = decide (255 < a.toNat + v.toNat + c.toNat) := flagByte_c ..
theorem differenceFlags_h (a v : Byte) (c : Bool) :
    (differenceFlags a v c).getLsbD 4 = decide (a.toNat % 16 < v.toNat % 16 + c.toNat) := flagByte_h ..
theorem differenceFlags_n (a v : Byte) (c : Bool) : (differenceFlags a v c).getLsbD 1 = true := flagByte_n ..
theorem differenceFlags_c (a v : Byte) (c : Bool) :
    (differenceFlags a v c).getLsbD 0 = decide (a.toNat < v.toNat + c.toNat) := flagByte_c ..

/-- With the tens `p` and the units `q` of the two numbers added up, the decimal carry is the binary carry or a result
above `0x99`. -/
theorem carry_or_above_iff {p q : Nat} (hp : p ≤ 18) (hq : q ≤ 18) :
    255 < 16 * p + q ∨ 0x99 < (16 * p + q) % 256 ↔ 100 ≤ 10 * p + q := by
  omega

theorem borrow_or_above_iff {p q : Int} (hp : -9 ≤ p ∧ p ≤ 9) (hq : -9 ≤ q ∧ q ≤ 9) :
    16 * p + q < 0 ∨ 0x99 < (16 * p + q) % 256 ↔ 10 * p + q < 0 := by
  omega

section Decimal
variable {x y : Nat} (hx : x < 100) (hy : y < 100)
include hx hy

theorem packedBcd_add_toNat :
    (packedBcd x + packedBcd y).toNat = (16 * (x / 10 + y / 10) + (x % 10 + y % 10)) % 256 := by
  rw [BitVec.toNat_add, packedBcd_toNat hx, packedBcd_toNat hy]
  omega

theorem packedBcd_sub_toNat :
    ((packedBcd x - packedBcd y).toNat : Int) =
      (16 * ((x / 10 : Nat) - (y / 10 : Nat)) + ((x % 10 : Nat) - (y % 10 : Nat))) % 256 := by
  rw [← sub8_false, sub8_toNat, packedBcd_toNat hx, packedBcd_toNat hy, Bool.toNat_false]
  push_cast
  omega

/-- The decimal carry is the binary carry or a result above `0x99`. -/
theorem decimalCarry_iff :
    255 < (packedBcd x).toNat + (packedBcd y).toNat ∨ 0x99 < (packedBcd x + packedBcd y).toNat ↔ 100 ≤ x + y := by
  have := carry_or_above_iff (p := x / 10 + y / 10) (q := x % 10 + y % 10) (by omega) (by omega)
  rw [packedBcd_add_toNat hx hy, packedBcd_toNat hx, packedBcd_toNat hy]
  omega

theorem decimalBorrow_iff :
    (packedBcd x).toNat < (packedBcd y).toNat ∨ 0x99 < (packedBcd x - packedBcd y).toNat ↔ x < y := by
  have := borrow_or_above_iff (p := (x / 10 : Nat) - (y / 10 : Nat)) (q := (x % 10 : Nat) - (y % 10 : Nat))
    (by omega) (by omega)
  rw [← packedBcd_sub_toNat hx hy] at this
  rw [packedBcd_toNat hx, packedBcd_toNat hy]
  omega

theorem decimalHalfCarry_iff :
    15 < (packedBcd x).toNat % 16 + (packedBcd y).toNat % 16 ∨ 9 < (packedBcd x + packedBcd y).toNat % 16 ↔
      9 < x % 10 + y % 10 := by
  rw [packedBcd_add_toNat hx hy, packedBcd_toNat hx, packedBcd_toNat hy]
  omega

theorem decimalHalfBorrow_iff :
    (packedBcd x).toNat % 16 < (packedBcd y).toNat % 16 ∨ 9 < (packedBcd x - packedBcd y).toNat % 16 ↔
      x % 10 < y % 10 := by
  have := packedBcd_sub_toNat hx hy
  rw [packedBcd_toNat hx, packedBcd_toNat hy]
  omega

theorem daaCorrection_sum :
    let f := sumFlags (packedBcd x) (packedBcd y) false
    daaCorrection (packedBcd x + packedBcd y) (f.getLsbD 4) (f.getLsbD 0) =
      (if 9 < x % 10 + y % 10 then 0x06 else 0) + (if 100 ≤ x + y then 0x60 else 0) := by
  simp only [sumFlags_h, sumFlags_c, daaCorrection, decide_eq_true_eq, Bool.toNat_false, Nat.add_zero,
    decimalHalfCarry_iff hx hy, decimalCarry_iff hx hy]

theorem daaCorrection_difference :
    let f := differenceFlags (packedBcd x) (packedBcd y) false
    daaCorrection (packedBcd x - packedBcd y) (f.getLsbD 4) (f.getLsbD 0) =
      (if x % 10 < y % 10 then 0x06 else 0) + (if x < y then 0x60 else 0) := by
  simp only [differenceFlags_h, differenceFlags_c, daaCorrection, decide_eq_true_eq, Bool.toNat_false, Nat.add_zero,
    decimalHalfBorrow_iff hx hy, decimalBorrow_iff hx hy]

theorem daaResult_sum :
    daaResult (packedBcd x + packedBcd y) (sumFlags (packedBcd x) (packedBcd y) false) =
      packedBcd ((x + y) % 100) := by
  have hz : (x + y) % 100 < 100 := Nat.mod_lt _ (by decide)
  apply BitVec.eq_of_toNat_eq
  rw [daaResult_eq_ofInt, sumFlags_n, daaCorrection_sum hx hy, packedBcd_add_toNat hx hy, BitVec.toNat_ofInt,
    packedBcd_toNat hz]
  simp only [Bool.false_eq_true, if_false]
  split <;> split <;> omega

theorem daaResult_difference :
    daaResult (packedBcd x - packedBcd y) (differenceFlags (packedBcd x) (packedBcd y) false) =
      packedBcd ((100 + x - y) % 100) := by
  have hz : (100 + x - y) % 100 < 100 := Nat.mod_lt _ (by decide)
  apply BitVec.eq_of_toNat_eq
  rw [daaResult_eq_ofInt, differenceFlags_n, daaCorrection_difference hx hy, packedBcd_sub_toNat hx hy,
    BitVec.toNat_ofInt, packedBcd_toNat hz]
  simp only [if_true]
  split <;> split <;> omega

theorem daaCarry_sum :
    ((sumFlags (packedBcd x) (packedBcd y) false).getLsbD 0 || decide (0x99 < (packedBcd x + packedBcd y).toNat)) =
      decide (100 ≤ x + y) := by
  rw [sumFlags_c, ← Bool.decide_or, decide_eq_decide]
  exact decimalCarry_iff hx hy

theorem daaCarry_difference :
    ((differenceFlags (packedBcd x) (packedBcd y) false).getLsbD 0 ||
      decide (0x99 < (packedBcd x - packedBcd y).toNat)) = decide (x < y) := by
  rw [differenceFlags_c, ← Bool.decide_or, decide_eq_decide]
  exact decimalBorrow_iff hx hy

end Decimal

theorem exec_addAN_eq (n : Byte) (s : State) :
    exec (.addAN n) s =
      .next { s with main := { s.main with a := s.main.a + n, f := sumFlags s.main.a n false } } :=
  congrArg Host.Outcome.next (s.aluAdd_eq n)

theorem exec_subN_eq (n : Byte) (s : State) :
    exec (.subN n) s =
      .next { s with main := { s.main with a := s.main.a - n, f := differenceFlags s.main.a n false } } :=
  congrArg Host.Outcome.next (s.aluSub_eq n)

/-- Settles O44: DAA corrects by 6 for a decimal carry or borrow of the units and by `0x60` for one of the tens. -/
theorem daaCorrectsBcd : Obligations.DaaCorrectsBcd := by
  intro s x y bcd ha
  obtain ⟨x, hx⟩ := x
  obtain ⟨y, hy⟩ := y
  have hs : s.main.a = packedBcd x := ha
  refine ⟨⟨_, _, exec_addAN_eq _ s, exec_daa_eq _, ?_, ?_⟩, ⟨_, _, exec_subN_eq _ s, exec_daa_eq _, ?_, ?_⟩⟩
  · rw [hs]
    exact daaResult_sum hx hy
  · rw [hs]
    exact (flagByte_c ..).trans (daaCarry_sum hx hy)
  · rw [hs]
    exact daaResult_difference hx hy
  · rw [hs]
    exact (flagByte_c ..).trans (daaCarry_difference hx hy)

end Sys2Proof.Machine
end

section
/-! The flag rules of 45_alu16.md: what the masks and shifts give is F computed from the operands. -/

namespace Sys2Proof.Machine

/-! ## Results -/

theorem adc16_false (x v : Word) : adc16 x v false = x + v := BitVec.add_zero _

theorem setWidth_carryByte (c : Bool) : (carryByte c).setWidth 16 = BitVec.ofNat 16 c.toNat := by cases c <;> rfl

theorem adc16_eq_ofNat (x v : Word) (c : Bool) : adc16 x v c = BitVec.ofNat 16 (x.toNat + v.toNat + c.toNat) := by
  simp only [adc16, setWidth_carryByte, BitVec.ofNat_add, BitVec.ofNat_toNat, BitVec.setWidth_eq]

theorem sbc16_eq_ofInt (x v : Word) (c : Bool) : sbc16 x v c = BitVec.ofInt 16 (x.toNat - v.toNat - c.toNat) := by
  rw [Int.sub_eq_add_neg, Int.sub_eq_add_neg]
  simp only [BitVec.ofInt_add, BitVec.ofInt_neg, BitVec.ofInt_natCast, BitVec.ofNat_toNat, BitVec.setWidth_eq,
    ← BitVec.sub_eq_add_neg, sbc16, setWidth_carryByte]

theorem toInt_setWidth_carryByte (c : Bool) : ((carryByte c).setWidth 16 : Word).toInt = c.toNat := by cases c <;> rfl

theorem adc16_toInt (x v : Word) (c : Bool) : (adc16 x v c).toInt = (x.toInt + v.toInt + c.toNat).bmod 65536 := by
  rw [adc16, BitVec.toInt_add, BitVec.toInt_add, toInt_setWidth_carryByte]
  exact Int.bmod_add_bmod

theorem sbc16_toInt (x v : Word) (c : Bool) : (sbc16 x v c).toInt = (x.toInt - v.toInt - c.toNat).bmod 65536 := by
  rw [sbc16, BitVec.toInt_sub, BitVec.toInt_sub, toInt_setWidth_carryByte]
  exact Int.bmod_sub_bmod

/-! ## Carries, borrows and overflow -/

/-- A bit of a sum that differs from the exclusive or of the operands' bits has a carry into it; bit 12 shows the carry
out of bit 11 (45_alu16.md R290, R291). -/
theorem adc16_halfCarry (x v : Word) (c : Bool) :
    (x ^^^ adc16 x v c ^^^ v).getLsbD 12 = decide (4095 < x.toNat % 4096 + v.toNat % 4096 + c.toNat) := by
  have hc : (carryByte c).setWidth 16 = (BitVec.ofBool c).setWidth 16 := by cases c <;> rfl
  have hbit : (adc16 x v c).getLsbD 12 = (x.getLsbD 12 ^^ (v.getLsbD 12 ^^ BitVec.carry 12 x v c)) := by
    rw [adc16, hc, BitVec.getLsbD_add_add_bool (by decide)]
  have hcancel (p q r : Bool) : (p ^^ (p ^^ (q ^^ r)) ^^ q) = r := by revert p q r; decide
  rw [BitVec.getLsbD_xor, BitVec.getLsbD_xor, hbit, hcancel, BitVec.carry]
  rfl

theorem and_0x0FFF_toNat (w : Word) : (w &&& 0x0FFF).toNat = w.toNat % 4096 :=
  (BitVec.toNat_and ..).trans (Nat.and_two_pow_sub_one_eq_mod w.toNat 12)

theorem and_0x8000_ne_zero (w : Word) : (w &&& 0x8000 ≠ 0) ↔ w.msb = true := by
  have h : w &&& 0x8000 = if w.getLsbD 15 then 0x8000 else 0 := BitVec.and_twoPow w 15
  rw [h, BitVec.msb_eq_getLsbD_last]
  cases w.getLsbD 15 <;> decide

/-- The sign after one wrap-around: a result outside the signed range has the wrong sign. -/
theorem bmod_neg_iff {r : Int} (hr : -65536 ≤ r ∧ r < 65536) :
    r.bmod 65536 < 0 ↔ (-32768 ≤ r ∧ r < 0) ∨ 32767 < r := by
  rw [Int.bmod_def]
  split <;> omega

theorem word_toInt_bounds (w : Word) : -32768 ≤ w.toInt ∧ w.toInt < 32768 := ⟨w.le_toInt, w.toInt_lt⟩

/-- The overflow test of R291: the operands have one sign and the result has the other. -/
theorem adc16_overflow (x v : Word) (c : Bool) :
    decide ((v ^^^ x ^^^ 0x8000) &&& (v ^^^ adc16 x v c) &&& 0x8000 ≠ 0) =
      (decide (x.toInt + v.toInt + c.toNat < -32768) || decide (32767 < x.toInt + v.toInt + c.toNat)) := by
  have hx := word_toInt_bounds x
  have hv := word_toInt_bounds v
  have hc := c.toNat_le
  have hsign : (0x8000 : Word).msb = true := rfl
  rw [← Bool.decide_or, decide_eq_decide, and_0x8000_ne_zero, BitVec.msb_and, BitVec.msb_xor, BitVec.msb_xor,
    BitVec.msb_xor, hsign, Bool.and_eq_true, Bool.xor_true, Bool.not_eq_true', bne_eq_false_iff_eq, bne_iff_ne]
  simp only [BitVec.msb_eq_toInt, ne_eq, decide_eq_decide, adc16_toInt]
  rw [bmod_neg_iff (by omega)]
  omega

/-- The overflow test of R292: the operands differ in sign, and so do HL and the result. -/
theorem sbc16_overflow (x v : Word) (c : Bool) :
    decide ((v ^^^ x) &&& (x ^^^ sbc16 x v c) &&& 0x8000 ≠ 0) =
      (decide (x.toInt - v.toInt - c.toNat < -32768) || decide (32767 < x.toInt - v.toInt - c.toNat)) := by
  have hx := word_toInt_bounds x
  have hv := word_toInt_bounds v
  have hc := c.toNat_le
  rw [← Bool.decide_or, decide_eq_decide, and_0x8000_ne_zero, BitVec.msb_and, BitVec.msb_xor, BitVec.msb_xor,
    Bool.and_eq_true, bne_iff_ne, bne_iff_ne]
  simp only [BitVec.msb_eq_toInt, ne_eq, decide_eq_decide, sbc16_toInt]
  rw [bmod_neg_iff (by omega)]
  omega

/-! ## The high byte under the masks -/

theorem getLsbD_shr8 (w : Word) {i : Nat} (hi : i < 8) : (shr8 w).getLsbD i = w.getLsbD (8 + i) := by
  simp [shr8, hi]

theorem shr8_and_hMask (w : Word) : shr8 w &&& hMask = flagIf (w.getLsbD 12) hMask := by
  rw [and_hMask, getLsbD_shr8 w (by decide)]

theorem shr8_and_sMask (w : Word) : shr8 w &&& sMask = flagIf (w.getLsbD 15) sMask := by
  rw [and_sMask, getLsbD_shr8 w (by decide)]

theorem shr8_and_yxMask (w : Word) :
    shr8 w &&& yxMask = flagIf (w.getLsbD 13) yMask ||| flagIf (w.getLsbD 11) xMask := by
  rw [and_yxMask, getLsbD_shr8 w (by decide), getLsbD_shr8 w (by decide)]

/-! ## The flag rules -/

theorem addHlFlags_eq_flagByte (f : Byte) (x v : Word) :
    addHlFlags f x v =
      flagByte (f.getLsbD 7) (f.getLsbD 6) ((x + v).getLsbD 13) (4095 < x.toNat % 4096 + v.toNat % 4096)
        ((x + v).getLsbD 11) (f.getLsbD 2) false (65535 < x.toNat + v.toNat) := by
  have hh := adc16_halfCarry x v false
  rw [adc16_false, Bool.toNat_false, Nat.add_zero] at hh
  simp only [addHlFlags, flagByte_eq_masks, BitVec.and_or_distrib_left, and_sMask, and_zMask, and_vMask, shr8_and_hMask,
    shr8_and_yxMask, hh, flagIf_false]
  ac_rfl

theorem adcHlFlags_eq_sumFlags16 (x v : Word) (c : Bool) : adcHlFlags x v c = sumFlags16 x v c := by
  rw [adcHlFlags, adc16_overflow, carryByte_toNat, shr8_and_hMask, adc16_halfCarry, BitVec.and_or_distrib_left,
    shr8_and_sMask, shr8_and_yxMask, sumFlags16, ← adc16_eq_ofNat, flagByte_eq_masks, flagIf_false]
  ac_rfl

theorem sbcHlFlags_eq_differenceFlags16 (x v : Word) (c : Bool) : sbcHlFlags x v c = differenceFlags16 x v c := by
  rw [sbcHlFlags, sbc16_overflow, carryByte_toNat, and_0x0FFF_toNat, and_0x0FFF_toNat, BitVec.and_or_distrib_left,
    shr8_and_sMask, shr8_and_yxMask, differenceFlags16, ← sbc16_eq_ofInt, flagByte_eq_masks, flagIf_true]
  ac_rfl

end Sys2Proof.Machine
end

section
/-! The 16-bit arithmetic (45_alu16.md). -/

namespace Sys2Proof.Machine

/-- F and an index register are written independently. -/
theorem State.setIx_setF (s : State) (j : IdxReg) (w : Word) (f : Byte) :
    (s.setIx j w).setF f = (s.setF f).setIx j w := by
  cases j <;> rfl

/-- Settles O45: the mask rule for F is the byte of its eight flags. -/
theorem addToHlAndIndex : Obligations.AddToHlAndIndex := by
  intro s flags
  refine ⟨fun p => ?_, fun j p => ?_⟩
  · rw [exec_addHlRr, execAddHlRr, addHlFlags_eq_flagByte]
    rfl
  · rw [exec_addIxRr, execAddIxRr, addHlFlags_eq_flagByte, State.setIx_setF]
    rfl

/-- Settles O46: the sums and differences of words are those of integers, and so are the flags. -/
theorem addAndSubtractWithCarry16 : Obligations.AddAndSubtractWithCarry16 := by
  intro s p v up down
  constructor
  · rw [exec_adcHlRr, execAdcHlRr, adcHlFlags_eq_sumFlags16, adc16_eq_ofNat]
    rfl
  · rw [exec_sbcHlRr, execSbcHlRr, sbcHlFlags_eq_differenceFlags16, sbc16_eq_ofInt]
    rfl

/-- A write of a pair reaches that pair only, and no flag. -/
theorem State.setPair_only (s : State) (p : Pair) (w : Word) :
    let t := s.setPair p w
    t.getPair p = w ∧ (∀ q, q ≠ p → t.getPair q = s.getPair q) ∧ t.af = s.af ∧
      t = { s with main := t.main, sp := t.sp } :=
  ⟨s.setPair_getPair p w, fun q hq => s.setPair_getPair_other p q w hq, s.setPair_af p w, s.setPair_frame p w⟩

/-- A write of an index register reaches that register only. -/
theorem State.setIx_only (s : State) (j : IdxReg) (w : Word) :
    let t := s.setIx j w
    t.getIx j = w ∧ (∀ k, k ≠ j → t.getIx k = s.getIx k) ∧ t = { s with ix := t.ix, iy := t.iy } :=
  ⟨s.setIx_getIx j w, fun k hk => s.setIx_getIx_other j k w hk, s.setIx_frame j w⟩

/-- Settles O47: each form is one write of a pair or of an index register. -/
theorem incrementAndDecrement16 : Obligations.IncrementAndDecrement16 := fun s =>
  ⟨fun p => ⟨_, rfl, s.setPair_only p (s.getPair p + 1)⟩, fun p => ⟨_, rfl, s.setPair_only p (s.getPair p - 1)⟩,
    fun j => ⟨_, rfl, s.setIx_only j (s.getIx j + 1)⟩, fun j => ⟨_, rfl, s.setIx_only j (s.getIx j - 1)⟩⟩

end Sys2Proof.Machine
end

section
/-! The results of rotates, shifts and bit operations as numbers (46_rotate_shift_bit.md sections 3 to 5). -/

namespace Sys2Proof.Machine

/-! ## Bits and shifts of a byte -/

theorem getLsbD_seven (v : Byte) : v.getLsbD 7 = decide (128 ≤ v.toNat) :=
  (BitVec.msb_eq_getLsbD_last v).symm.trans (BitVec.msb_eq_decide v)

theorem getLsbD_zero_eq_odd (v : Byte) : v.getLsbD 0 = decide (v.toNat % 2 = 1) := Nat.testBit_zero v.toNat

theorem getLsbD_seven_toNat (v : Byte) : (v.getLsbD 7).toNat = v.toNat / 128 := by
  have hbit : (v.getLsbD 7).toNat = v.toNat / 2 ^ 7 % 2 := Nat.toNat_testBit v.toNat 7
  have := v.isLt
  omega

theorem getLsbD_zero_toNat (v : Byte) : (v.getLsbD 0).toNat = v.toNat % 2 := by
  have hbit : (v.getLsbD 0).toNat = v.toNat / 2 ^ 0 % 2 := Nat.toNat_testBit v.toNat 0
  omega

/-- Bits shifted to the left leave room for a smaller number. -/
theorem shiftLeft_or_eq_ofNat (v lo : Byte) (k : Nat) (hlo : lo.toNat < 2 ^ k) :
    v <<< k ||| lo = BitVec.ofNat 8 (v.toNat * 2 ^ k + lo.toNat) := by
  have hv : v <<< k = BitVec.ofNat 8 (v.toNat <<< k) := rfl
  rw [← Nat.shiftLeft_eq, Nat.shiftLeft_add_eq_or_of_lt hlo, BitVec.ofNat_or, ← hv, BitVec.ofNat_toNat,
    BitVec.setWidth_eq]

theorem ushiftRight_toNat (v : Byte) (k : Nat) : (v >>> k).toNat = v.toNat / 2 ^ k :=
  (BitVec.toNat_ushiftRight ..).trans (Nat.shiftRight_eq_div_pow ..)

/-- Only the eight low bits of a number make a byte. -/
theorem ofNat_eq_of_mod {m n : Nat} (h : m % 256 = n % 256) : (BitVec.ofNat 8 m : Byte) = BitVec.ofNat 8 n :=
  BitVec.eq_of_toNat_eq h

/-! ## Rotates and shifts (R310 to R317) -/

theorem rl_eq (v : Byte) (c : Bool) : rl v c = ⟨BitVec.ofNat 8 (v.toNat * 2 % 256 + c.toNat), 128 ≤ v.toNat⟩ := by
  have hc := c.toNat_le
  have hlo : (carryByte c).toNat < 2 ^ 1 := by rw [carryByte_toNat]; omega
  rw [rl, shiftLeft_or_eq_ofNat v _ 1 hlo, carryByte_toNat, getLsbD_seven, ofNat_eq_of_mod]
  omega

theorem rr_eq (v : Byte) (c : Bool) : rr v c = ⟨BitVec.ofNat 8 (v.toNat / 2 + c.toNat * 128), v.toNat % 2 = 1⟩ := by
  have hv := ushiftRight_toNat v 1
  have hlo : (v >>> 1).toNat < 2 ^ 7 := by have := v.isLt; omega
  rw [rr, BitVec.or_comm, shiftLeft_or_eq_ofNat _ _ 7 hlo, carryByte_toNat, getLsbD_zero_eq_odd, ofNat_eq_of_mod]
  omega

theorem rlc_eq (v : Byte) : rlc v = ⟨BitVec.ofNat 8 (v.toNat * 2 % 256 + v.toNat / 128), 128 ≤ v.toNat⟩ := by
  have hrlc : rlc v = rl v (v.getLsbD 7) := rfl
  rw [hrlc, rl_eq, getLsbD_seven_toNat]

theorem rrc_eq (v : Byte) : rrc v = ⟨BitVec.ofNat 8 (v.toNat / 2 + v.toNat % 2 * 128), v.toNat % 2 = 1⟩ := by
  have hrrc : rrc v = rr v (v.getLsbD 0) := rfl
  rw [hrrc, rr_eq, getLsbD_zero_toNat]

/-- SLA shifts in a zero, as RL does with the carry clear. -/
theorem sla_eq (v : Byte) : sla v = ⟨BitVec.ofNat 8 (v.toNat * 2 % 256), 128 ≤ v.toNat⟩ := by
  have hsla : sla v = rl v false := by rw [sla, rl, carryByte_false, BitVec.ofNat_eq_ofNat, BitVec.or_zero]
  rw [hsla, rl_eq]
  rfl

theorem sll_eq (v : Byte) : sll v = ⟨BitVec.ofNat 8 (v.toNat * 2 % 256 + 1), 128 ≤ v.toNat⟩ := rl_eq v true

/-- SRA shifts in the sign, as RR does with the carry equal to it. -/
theorem sra_eq (v : Byte) : sra v = ⟨BitVec.ofNat 8 (v.toNat / 2 + v.toNat / 128 * 128), v.toNat % 2 = 1⟩ := by
  have hsign : v &&& (0x80 : Byte) = carryByte (v.getLsbD 7) <<< 7 := by
    refine (and_sMask v).trans ?_
    cases v.getLsbD 7 <;> rfl
  have hsra : sra v = rr v (v.getLsbD 7) := by rw [sra, hsign, rr]
  rw [hsra, rr_eq, getLsbD_seven_toNat]

theorem srl_eq (v : Byte) : srl v = ⟨BitVec.ofNat 8 (v.toNat / 2), v.toNat % 2 = 1⟩ := by
  have hsrl : srl v = rr v false := by
    rw [srl, rr, carryByte_false, BitVec.ofNat_eq_ofNat, BitVec.zero_shiftLeft, BitVec.or_zero]
  rw [hsrl, rr_eq, Bool.toNat_false, Nat.zero_mul, Nat.add_zero]

/-! ## Bits by number (R320 to R322) -/

theorem bitMask_eq_twoPow (b : Field3) : bitMask b = BitVec.twoPow 8 b.toNat := rfl

theorem and_bitMask (b : Field3) (v : Byte) :
    v &&& bitMask b = if v.getLsbD b.toNat then bitMask b else 0 :=
  BitVec.and_twoPow v b.toNat

theorem bitMask_eq_ofNat (b : Field3) : bitMask b = BitVec.ofNat 8 (2 ^ b.toNat) := by
  rw [bitMask, ← Nat.one_shiftLeft]
  rfl

/-- SET adds the bit where it is clear. -/
theorem setBit_eq (b : Field3) (v : Byte) :
    setBit b v = BitVec.ofNat 8 (v.toNat + if v.getLsbD b.toNat then 0 else 2 ^ b.toNat) := by
  have hv : BitVec.ofNat 8 v.toNat = v := by rw [BitVec.ofNat_toNat, BitVec.setWidth_eq]
  have hand := and_bitMask b v
  rw [setBit]
  split at hand
  case isTrue h =>
    have habsorb : v ||| v &&& bitMask b = v := by ext; grind
    rw [if_pos h, Nat.add_zero, hv, ← hand, habsorb]
  case isFalse h =>
    rw [if_neg h, BitVec.ofNat_add, hv, ← bitMask_eq_ofNat]
    exact (BitVec.add_eq_or_of_and_eq_zero _ _ hand).symm

/-- RES takes the bit away where it is set: a byte is the sum of its bits under a mask and of those outside. -/
theorem resBit_eq (b : Field3) (v : Byte) :
    resBit b v = BitVec.ofNat 8 (v.toNat - if v.getLsbD b.toNat then 2 ^ b.toNat else 0) := by
  have hsplit : resBit b v + (v &&& bitMask b) = v := by
    have hdisjoint : v &&& ~~~bitMask b &&& (v &&& bitMask b) = 0 := by ext; grind
    rw [resBit, BitVec.add_eq_or_of_and_eq_zero _ _ hdisjoint]
    ext; grind
  have hv : BitVec.ofNat 8 v.toNat = v := by rw [BitVec.ofNat_toNat, BitVec.setWidth_eq]
  rw [and_bitMask] at hsplit
  split at hsplit
  case isTrue h =>
    have hle : 2 ^ b.toNat ≤ v.toNat := Nat.ge_two_pow_of_testBit h
    have hsum : v = BitVec.ofNat 8 (v.toNat - 2 ^ b.toNat) + bitMask b := by
      rw [bitMask_eq_ofNat, ← BitVec.ofNat_add, Nat.sub_add_cancel hle, hv]
    rw [if_pos h]
    exact add_right_cancel (hsplit.trans hsum)
  case isFalse h =>
    rw [if_neg h, Nat.sub_zero, hv]
    exact (BitVec.add_zero _).symm.trans hsplit

/-! ## Nibbles (R330, R331) -/

theorem ushiftRight_four_toNat (v : Byte) : (v >>> 4).toNat = v.toNat / 16 := ushiftRight_toNat v 4

theorem ushiftRight_four_toNat_lt (v : Byte) : (v >>> 4).toNat < 16 := by
  rw [ushiftRight_four_toNat]
  have := v.isLt
  omega

/-- A low nibble under the high nibble of a byte. -/
theorem highNibble_or_eq_ofNat (v lo : Byte) (hlo : lo.toNat < 16) :
    v &&& (0xF0 : Byte) ||| lo = BitVec.ofNat 8 (v.toNat / 16 * 16 + lo.toNat) := by
  have hhigh : v &&& (0xF0 : Byte) = (v >>> 4) <<< 4 := (BitVec.shiftLeft_ushiftRight (x := v) (n := 4)).symm
  rw [hhigh, shiftLeft_or_eq_ofNat _ lo 4 hlo, ushiftRight_four_toNat]
  rfl

/-- A low nibble under the low nibble of a byte, which moves up. -/
theorem shiftLeft_four_or_eq_ofNat (v lo : Byte) (hlo : lo.toNat < 16) :
    v <<< 4 ||| lo = BitVec.ofNat 8 (v.toNat % 16 * 16 + lo.toNat) := by
  rw [shiftLeft_or_eq_ofNat v lo 4 hlo]
  exact ofNat_eq_of_mod (by omega)

theorem and_0x0F_toNat_lt (v : Byte) : (v &&& 0x0F).toNat < 16 := by
  rw [and_0x0F_toNat]
  exact Nat.mod_lt _ (by decide)

theorem rldBytes_eq (a m : Byte) :
    rldBytes a m =
      (BitVec.ofNat 8 (m.toNat % 16 * 16 + a.toNat % 16), BitVec.ofNat 8 (a.toNat / 16 * 16 + m.toNat / 16)) := by
  rw [← and_0x0F_toNat a, ← ushiftRight_four_toNat m]
  exact Prod.ext (shiftLeft_four_or_eq_ofNat m _ (and_0x0F_toNat_lt a))
    (highNibble_or_eq_ofNat a _ (ushiftRight_four_toNat_lt m))

theorem rrdBytes_eq (a m : Byte) :
    rrdBytes a m =
      (BitVec.ofNat 8 (a.toNat % 16 * 16 + m.toNat / 16), BitVec.ofNat 8 (a.toNat / 16 * 16 + m.toNat % 16)) := by
  rw [← and_0x0F_toNat m, ← ushiftRight_four_toNat m]
  exact Prod.ext ((BitVec.or_comm ..).trans (shiftLeft_four_or_eq_ofNat a _ (ushiftRight_four_toNat_lt m)))
    (highNibble_or_eq_ofNat a _ (and_0x0F_toNat_lt m))

/-! ## Flags -/

theorem accRotFlags_eq_flagByte (f new : Byte) (out : Bool) :
    accRotFlags f ⟨new, out⟩ =
      flagByte (f.getLsbD 7) (f.getLsbD 6) (new.getLsbD 5) false (new.getLsbD 3) (f.getLsbD 2) false out := by
  simp only [accRotFlags, flagByte_eq_masks, BitVec.and_or_distrib_left, and_sMask, and_zMask, and_vMask, and_yxMask,
    flagIf_false]
  ac_rfl

theorem rotFlags_eq_resultFlags (new : Byte) (out : Bool) :
    rotFlags ⟨new, out⟩ = resultFlags new false (evenParity new) false out := by
  rw [rotFlags, szp_eq_resultFlags, resultFlags_eq_sz, resultFlags_eq_sz]
  simp

theorem rotDecFlags_eq_resultFlags (f new : Byte) :
    rotDecFlags f new = resultFlags new false (evenParity new) false (f.getLsbD 0) := by
  rw [rotDecFlags, szp_eq_resultFlags, and_cMask, resultFlags_eq_sz, resultFlags_eq_sz]
  simp only [flagIf_false]
  ac_rfl

theorem and_bitMask_getLsbD (b : Field3) (v : Byte) (i : Nat) :
    (v &&& bitMask b).getLsbD i = (decide (b.toNat = i) && v.getLsbD b.toNat) := by
  have hb : b.toNat < 8 := b.isLt
  rw [and_bitMask, bitMask_eq_twoPow]
  cases v.getLsbD b.toNat <;> simp [BitVec.getLsbD_twoPow, hb]

theorem and_bitMask_eq_zero (b : Field3) (v : Byte) : decide (v &&& bitMask b = 0) = !v.getLsbD b.toNat := by
  have hb : decide (bitMask b = 0) = false := by revert b; decide
  rw [and_bitMask]
  cases v.getLsbD b.toNat
  · rfl
  · exact hb

theorem bitFlags_eq_flagByte (f : Byte) (b : Field3) (v : Byte) :
    let on := v.getLsbD b.toNat
    bitFlags f b v =
      flagByte (b = 7 && on) (!on) (b = 5 && on) true (b = 3 && on) (!on) false (f.getLsbD 0) := by
  have hresult : bitFlags f b v = resultFlags (v &&& bitMask b) true (v &&& bitMask b = 0) false (f.getLsbD 0) := by
    rw [bitFlags, szBit, and_cMask, resultFlags_eq_sz]
    simp only [flagIf_false, flagIf_true]
    ac_rfl
  have hnum (n : Field3) : decide (b = n) = decide (b.toNat = n.toNat) := decide_eq_decide.2 BitVec.toNat_inj.symm
  rw [hresult, resultFlags, and_bitMask_eq_zero, and_bitMask_getLsbD, and_bitMask_getLsbD, and_bitMask_getLsbD,
    hnum, hnum, hnum]
  rfl

end Sys2Proof.Machine
end

section
/-! The rotates, shifts and bit operations (46_rotate_shift_bit.md). -/

namespace Sys2Proof.Machine

/-! ## Accumulator rotates (R300 to R303) -/

theorem State.accRot_eq (s : State) (new : Nat) (out : Bool) :
    s.accRot ⟨BitVec.ofNat 8 new, out⟩ = s.accRotated new out := by
  rw [State.accRot, accRotFlags_eq_flagByte]
  rfl

/-- Settles O48: each result is a number, and the masks for F give the byte of its eight flags. -/
theorem accumulatorRotates : Obligations.AccumulatorRotates := by
  intro s a c
  refine ⟨?_, ?_, ?_, ?_⟩
  · rw [exec_rlca, execRlca, rlc_eq, State.accRot_eq]
  · rw [exec_rrca, execRrca, rrc_eq, State.accRot_eq]
  · rw [exec_rla, execRla, rl_eq, State.accRot_eq]
  · rw [exec_rra, execRra, rr_eq, State.accRot_eq]

/-! ## Operations of the CB regime that write back, in the three forms of R305 and R306 -/

/-- Three instructions that write back one operation's result and F are the forms of its effect; the memory forms fault
outside memory (decision D3). -/
theorem cbForms_of_exec {reg : Reg8 → Instr} {memHl : Instr} {memIx : IdxReg → Byte → Instr}
    {new flags new' flags' : Byte → Byte → Byte} (hnew : ∀ f v, new f v = new' f v)
    (hflags : ∀ f v, flags f v = flags' f v)
    (hreg : ∀ r s, exec (reg r) s =
      .next ((s.setR8 r (new s.main.f (s.getR8 r))).setF (flags s.main.f (s.getR8 r))))
    (hmemHl : ∀ s, exec memHl s = s.modifyByte s.hl (new s.main.f) (flags s.main.f))
    (hmemIx : ∀ j d s, exec (memIx j d) s = s.modifyByte (s.ea j d) (new s.main.f) (flags s.main.f)) :
    CbForms reg memHl memIx new' flags' := by
  obtain rfl : new = new' := funext₂ hnew
  exact fun s hw => ⟨fun r => ⟨_, hreg r s, s.setR8_setF_only r _ (hflags _ _)⟩,
    modifiesByte_of_exec hw (hflags _) (hmemHl s), fun j d => modifiesByte_of_exec hw (hflags _) (hmemIx j d s)⟩

/-! ## Rotates and shifts (R310 to R317) -/

/-- Three instructions that run one rotate or shift, which `exec` shows by unfolding, are the forms of its effect. -/
theorem rotateForms_of_exec {reg : Reg8 → Instr} {memHl : Instr} {memIx : IdxReg → Byte → Instr}
    {rot : Bool → Byte → Shifted} {new : Nat → Nat → Nat} {out : Nat → Bool}
    (hrot : ∀ c v, rot c v = ⟨BitVec.ofNat 8 (new c.toNat v.toNat), out v.toNat⟩)
    (hreg : ∀ r s, exec (reg r) s = .next (s.rotR8 r (rot s.flagC)) := by intros; rfl)
    (hmemHl : ∀ s, exec memHl s = s.rotMem s.hl (rot s.flagC) := by intros; rfl)
    (hmemIx : ∀ j d s, exec (memIx j d) s = s.rotMem (s.ea j d) (rot s.flagC) := by intros; rfl) :
    RotateForms reg memHl memIx new out := by
  refine cbForms_of_exec (new := fun f v => (rot (f.getLsbD 0) v).new)
    (flags := fun f v => rotFlags (rot (f.getLsbD 0) v)) (fun f v => ?_) (fun f v => ?_) hreg hmemHl hmemIx
  · rw [hrot, getLsbD_zero_toNat]
  · rw [hrot, getLsbD_zero_toNat, rotFlags_eq_resultFlags]

/-- Settles O49: each of the eight operations has its result as a number. -/
theorem rotatesAndShifts : Obligations.RotatesAndShifts :=
  ⟨rotateForms_of_exec fun _ => rlc_eq, rotateForms_of_exec fun _ => rrc_eq, rotateForms_of_exec fun c v => rl_eq v c,
    rotateForms_of_exec fun c v => rr_eq v c, rotateForms_of_exec fun _ => sla_eq, rotateForms_of_exec fun _ => sra_eq,
    rotateForms_of_exec fun _ => sll_eq, rotateForms_of_exec fun _ => srl_eq⟩

/-! ## Bit test, reset, set (R320 to R322) -/

theorem State.setR8_setF_self (s : State) (r : Reg8) (v : Byte) : (s.setR8 r v).setF s.main.f = s.setR8 r v := by
  cases r <;> rfl

theorem State.bitTest_eq (s : State) (b : Field3) (v : Byte) :
    let on := v.getLsbD b.toNat
    s.bitTest b v =
      { s with
        main := { s.main with
          f := flagByte (b = 7 && on) (!on) (b = 5 && on) true (b = 3 && on) (!on) false s.flagC } } := by
  rw [State.bitTest, bitFlags_eq_flagByte]
  rfl

/-- Three instructions that write back one function of the operand and keep F. -/
theorem cbForms_of_exec_keepF {reg : Reg8 → Instr} {memHl : Instr} {memIx : IdxReg → Byte → Instr}
    {new new' : Byte → Byte} (hnew : ∀ v, new v = new' v)
    (hreg : ∀ r s, exec (reg r) s = .next (s.setR8 r (new (s.getR8 r))) := by intros; rfl)
    (hmemHl : ∀ s, exec memHl s = s.modifyByte s.hl new fun _ => s.main.f := by intros; rfl)
    (hmemIx : ∀ j d s, exec (memIx j d) s = s.modifyByte (s.ea j d) new fun _ => s.main.f := by intros; rfl) :
    CbForms reg memHl memIx (fun _ => new') fun f _ => f :=
  cbForms_of_exec (fun _ => hnew) (fun _ _ => rfl) (fun r s => by rw [hreg, State.setR8_setF_self]) hmemHl hmemIx

/-- Settles O50: BIT is one write of F; RES and SET subtract or add the bit. -/
theorem bitOperations : Obligations.BitOperations := by
  intro b
  refine ⟨?_, cbForms_of_exec_keepF (resBit_eq b), cbForms_of_exec_keepF (setBit_eq b)⟩
  intro s tested
  have htested : s.bitTest b = tested := funext (s.bitTest_eq b)
  rw [← htested]
  exact ⟨fun _ => rfl, readsByte_of_exec rfl, fun _ _ => readsByte_of_exec rfl⟩

/-! ## Decimal rotates (R330, R331) -/

/-- A decimal rotate inside memory writes the byte at HL, A and F. -/
theorem State.rotDec_completes (s : State) (rot : Byte → Byte → Byte × Byte) {k m : Nat} (hw : s.mem.wf = true)
    (ha : s.hl.toNat < s.cfg.ramSize)
    (hrot : rot s.main.a (s.byteAt s.hl) = (BitVec.ofNat 8 m, BitVec.ofNat 8 k)) :
    let n : Byte := BitVec.ofNat 8 k
    ∃ t, s.rotDec rot = .next t ∧
      StoresByte
        { s with main := { s.main with a := n, f := resultFlags n false (evenParity n) false s.flagC } } t s.hl
        (BitVec.ofNat 8 m) := by
  intro n
  have hok := (s.byteOk_iff s.hl).2 ha
  obtain ⟨-, hm, hother⟩ := s.memWrite8_stores _ s.hl (BitVec.ofNat 8 m) hw ((s.memWrite8_ok s.hl _ _).2 ⟨hok, rfl⟩)
  refine ⟨_, (s.rotDec_next _ rot).2 ⟨hok, rfl⟩, ?_⟩
  rw [hrot, rotDecFlags_eq_resultFlags]
  exact ⟨rfl, hm, hother⟩

theorem State.rotDec_eq_fault (s : State) (rot : Byte → Byte → Byte × Byte) (ha : ¬ s.hl.toNat < s.cfg.ramSize) :
    s.rotDec rot = .fault (.memoryOutOfRange s.hl) := by
  rw [State.rotDec, s.memRead8_eq_error s.hl ha]

/-- Settles O51: the nibbles of the two results as numbers. -/
theorem decimalRotates : Obligations.DecimalRotates := by
  intro s hw a m withA
  split
  case isTrue ha =>
    exact ⟨s.rotDec_completes rldBytes hw ha (rldBytes_eq _ _), s.rotDec_completes rrdBytes hw ha (rrdBytes_eq _ _)⟩
  case isFalse ha => exact ⟨s.rotDec_eq_fault rldBytes ha, s.rotDec_eq_fault rrdBytes ha⟩

end Sys2Proof.Machine
end

section
/-! The decoder rows (log 15): an escape fetches the bytes after it and does what the row they name does. -/

namespace Sys2Proof.Machine

/-! ## What the CB dispatch does in each quarter (46_rotate_shift_bit.md R305) -/

theorem cbWriteBack_of_rotate {op : Byte} (hx : fieldX op = 0) (f v : Byte) :
    cbWriteBack op f v =
      ((rotOf (fieldY op) (f.getLsbD 0) v).new, rotFlags (rotOf (fieldY op) (f.getLsbD 0) v)) := by
  rw [cbWriteBack, hx]
  rfl

theorem cbWriteBack_of_res {op : Byte} (hx : fieldX op = 2) (f v : Byte) :
    cbWriteBack op f v = (resBit (field3Y op) v, f) := by
  rw [cbWriteBack, hx]
  rfl

theorem cbWriteBack_of_set {op : Byte} (hx : fieldX op = 3) (f v : Byte) :
    cbWriteBack op f v = (setBit (field3Y op) v, f) := by
  rw [cbWriteBack, hx]
  rfl

/-- An operation of the CB regime that writes back is one read-modify-write. -/
theorem State.cbOnMem_of_ne_bit (s : State) {op : Byte} (a : Word) (hx : fieldX op ≠ 1) :
    s.cbOnMem op a =
      s.modifyByte a (fun v => (cbWriteBack op s.main.f v).1) fun v => (cbWriteBack op s.main.f v).2 := by
  rw [State.cbOnMem, State.modifyByte]
  cases s.memRead8 a with
  | error e => rfl
  | ok v =>
    simp only [hx, if_false]
    cases s.memWrite8 a (cbWriteBack op s.main.f v).1 <;> rfl

theorem State.cbOnMem_of_bit (s : State) {op : Byte} (a : Word) (hx : fieldX op = 1) :
    s.cbOnMem op a = s.withByte a (s.bitTest (field3Y op)) := by
  rw [State.cbOnMem, State.withByte]
  cases s.memRead8 a with
  | error e => rfl
  | ok v => exact if_pos hx

theorem State.cbOnMem_of_rotate (s : State) {op : Byte} (a : Word) (hx : fieldX op = 0) :
    s.cbOnMem op a = s.rotMem a (rotOf (fieldY op) s.flagC) := by
  rw [s.cbOnMem_of_ne_bit a (by omega)]
  simp only [cbWriteBack_of_rotate hx]
  rfl

theorem State.cbOnMem_of_res (s : State) {op : Byte} (a : Word) (hx : fieldX op = 2) :
    s.cbOnMem op a = s.modifyByte a (resBit (field3Y op)) fun _ => s.main.f := by
  rw [s.cbOnMem_of_ne_bit a (by omega)]
  simp only [cbWriteBack_of_res hx]

theorem State.cbOnMem_of_set (s : State) {op : Byte} (a : Word) (hx : fieldX op = 3) :
    s.cbOnMem op a = s.modifyByte a (setBit (field3Y op)) fun _ => s.main.f := by
  rw [s.cbOnMem_of_ne_bit a (by omega)]
  simp only [cbWriteBack_of_set hx]

theorem fieldX_cases (op : Byte) : fieldX op = 0 ∨ fieldX op = 1 ∨ fieldX op = 2 ∨ fieldX op = 3 := by
  obtain ⟨-, -, hx, -⟩ := toNat_eq_fields op
  omega

theorem fieldY_lt (op : Byte) : fieldY op < 8 := (field3Y op).isLt

/-! ## The rows of the regimes cb and idxcb do what the dispatch does -/

theorem exec_decodeCb_reg (s : State) {op : Byte} {r : Reg8} (hz : Reg8.ofField (fieldZ op) = some r) :
    exec (decodeCb op) s = s.cbOnReg op r := by
  have hy := fieldY_lt op
  simp only [decodeCb, State.cbOnReg, hz]
  obtain hx | hx | hx | hx := fieldX_cases op
  · simp only [hx, cbWriteBack_of_rotate hx]
    generalize fieldY op = y at hy
    interval_cases y <;> rfl
  · simp only [hx]
    rfl
  · simp only [hx, cbWriteBack_of_res hx, State.setR8_setF_self]
    rfl
  · simp only [hx, cbWriteBack_of_set hx, State.setR8_setF_self]
    rfl

theorem exec_decodeCb_mem (s : State) {op : Byte} (hz : Reg8.ofField (fieldZ op) = none) :
    exec (decodeCb op) s = s.cbOnMem op s.hl := by
  have hy := fieldY_lt op
  simp only [decodeCb, hz]
  obtain hx | hx | hx | hx := fieldX_cases op
  · rw [s.cbOnMem_of_rotate _ hx, hx]
    generalize fieldY op = y at hy
    interval_cases y <;> rfl
  · rw [s.cbOnMem_of_bit _ hx, hx]
    rfl
  · rw [s.cbOnMem_of_res _ hx, hx]
    rfl
  · rw [s.cbOnMem_of_set _ hx, hx]
    rfl

theorem exec_decodeIdxCb (s : State) {op : Byte} (j : IdxReg) (d : Byte) (hz : fieldZ op = 6) :
    exec (decodeIdxCb j d op) s = s.cbOnMem op (s.ea j d) := by
  have hy := fieldY_lt op
  rw [decodeIdxCb, if_pos hz]
  obtain hx | hx | hx | hx := fieldX_cases op
  · rw [s.cbOnMem_of_rotate _ hx, hx]
    generalize fieldY op = y at hy
    interval_cases y <;> rfl
  · rw [s.cbOnMem_of_bit _ hx, hx]
    rfl
  · rw [s.cbOnMem_of_res _ hx, hx]
    rfl
  · rw [s.cbOnMem_of_set _ hx, hx]
    rfl

theorem exec_decodeIdxCb_of_ne (s : State) {op : Byte} (j : IdxReg) (d : Byte) (hz : fieldZ op ≠ 6) :
    exec (decodeIdxCb j d op) s = unimplemented [j.pfx, 0xCB, d, op] := by
  rw [decodeIdxCb, if_neg hz]
  rfl

/-! ## The CB escapes (R305, R306) -/

theorem State.fetch8_eq (s : State) (h : s.pc.toNat < s.cfg.ramSize) :
    s.fetch8 = .ok (s.byteAt s.pc, s.advance 1) :=
  (s.fetch8_ok _ _).2 ⟨(s.byteOk_iff s.pc).2 h, rfl, rfl⟩

theorem exec_cbEscape_eq (s : State) (h : s.pc.toNat < s.cfg.ramSize) :
    exec .cbEscape s = exec (decodeCb (s.byteAt s.pc)) (s.advance 1) := by
  rw [exec_cbEscape, execCbEscape, s.fetch8_eq h]
  cases hz : Reg8.ofField (fieldZ (s.byteAt s.pc)) with
  | some r =>
    rw [exec_decodeCb_reg _ hz]
    simp only [hz]
  | none =>
    rw [exec_decodeCb_mem _ hz]
    simp only [hz]

theorem exec_cbEscapeIndexed_eq (j : IdxReg) (s : State) (h : s.pc.toNat < s.cfg.ramSize)
    (h' : (s.pc + 1).toNat < s.cfg.ramSize) :
    exec (.cbEscapeIndexed j) s =
      exec (decodeIdxCb j (s.byteAt s.pc) (s.byteAt (s.pc + 1))) ((s.advance 1).advance 1) := by
  have hop : (s.advance 1).fetch8 = .ok (s.byteAt (s.pc + 1), (s.advance 1).advance 1) := State.fetch8_eq _ h'
  rw [exec_cbEscapeIndexed, execCbEscapeIndexed, s.fetch8_eq h]
  simp only [hop]
  by_cases hz : fieldZ (s.byteAt (s.pc + 1)) = 6
  · rw [exec_decodeIdxCb _ j _ hz, if_pos hz]
  · rw [exec_decodeIdxCb_of_ne _ j _ hz, if_neg hz]

/-! ## The ED escape (30_encoding.md R120) -/

/-- The two families of regime ed with a 16-bit immediate (R120). -/
def IsEdWordRow (f : Word → Instr) : Prop := ∃ p, f = .ldMemNnRr p ∨ f = .ldRrMemNn p

theorem IsEdWordRow.hasImm16 {f : Word → Instr} (h : IsEdWordRow f) (nn : Word) : hasImm16 (f nn) = true := by
  obtain ⟨p, rfl | rfl⟩ := h <;> rfl

/-- `p` is what the decoder reads after `ED op`, and `k` the dispatch on `op`: an instruction that `k` runs at once, or,
in the two families with a 16-bit immediate, one that it runs after fetching it. -/
def EdMatches (op : Byte) (p : Parse) (k : State → Result) : Prop :=
  (∃ i, p = .done i ∧ ∀ s, k s = exec i s) ∨
  ∃ f, IsEdWordRow f ∧ op &&& 0xC7 = 0x43 ∧ p = .word (fun nn => .done (f nn)) ∧
    ∀ s, k s = s.withImm16 fun nn => exec (f nn)

theorem EdMatches.done {op : Byte} (i : Instr) : EdMatches op (.done i) (exec i) := .inl ⟨i, rfl, fun _ => rfl⟩

theorem EdMatches.ite {op : Byte} {c : Prop} [Decidable c] {p p' : Parse} {k k' : State → Result}
    (ht : c → EdMatches op p k) (hf : ¬ c → EdMatches op p' k') :
    EdMatches op (if c then p else p') fun s => if c then k s else k' s := by
  by_cases h : c
  · simpa only [if_pos h] using ht h
  · simpa only [if_neg h] using hf h

/-- The two families of R120 with a 16-bit immediate, under the mask of both. -/
theorem and_0xC7_of_and_0xCF {op base : Byte} (h : op &&& 0xCF = base) (hbase : base &&& 0xC7 = 0x43) :
    op &&& 0xC7 = 0x43 := by
  rw [← hbase, ← h, BitVec.and_assoc]
  rfl

theorem edDispatch_matches (op : Byte) : EdMatches op (decodeEd op) (State.edDispatch · op) := by
  unfold decodeEd State.edDispatch
  extract_lets p
  refine .ite (fun _ => .done (.adcHlRr p)) fun _ => ?_
  refine .ite (fun _ => .done (.sbcHlRr p)) fun _ => ?_
  refine .ite (fun h => .inr ⟨_, ⟨p, .inl rfl⟩, and_0xC7_of_and_0xCF h rfl, rfl, fun _ => rfl⟩) fun _ => ?_
  refine .ite (fun h => .inr ⟨_, ⟨p, .inr rfl⟩, and_0xC7_of_and_0xCF h rfl, rfl, fun _ => rfl⟩) fun _ => ?_
  repeat refine .ite (fun _ => .done _) fun _ => ?_
  exact .done (.edOther op)

/-- Every row of the 28 opcodes is one that does not fault by itself. -/
theorem decodeEd_edRow {op : Byte} (h : op ∈ edImplemented) : ParseAll (edRow · = true) (decodeEd op) := by
  rw [mem_edImplemented] at h
  unfold decodeEd
  extract_lets p
  repeat' apply iteInduction <;> intro _
  all_goals simp_all [edRow]

theorem exec_edEscape_eq_dispatch (s : State) (h : s.pc.toNat < s.cfg.ramSize) :
    exec .edEscape s = (s.advance 1).edDispatch (s.byteAt s.pc) := by
  rw [exec_edEscape, execEdEscape, s.fetch8_eq h]

theorem State.withImm16_eq (s : State) (k : Word → State → Result) (h : s.WordInside s.pc) :
    s.withImm16 k = k (s.wordAt s.pc) (s.advance 2) := by
  have hf := (s.fetch16_ok (s.advance 2) _).2 ⟨(s.wordOk_iff s.pc).2 h, rfl, rfl⟩
  rw [State.withImm16, hf]

theorem runList_word_eq_ok {f : Word → Instr} {bytes : List Byte} {i : Instr}
    (h : (Parse.word fun nn => .done (f nn)).runList bytes = .ok (i, [])) :
    ∃ lo hi, bytes = [lo, hi] ∧ i = f (joinBytes lo hi) := by
  match bytes, h with
  | lo :: hi :: rest, h =>
    rw [runList_word, runList_done] at h
    cases h
    exact ⟨lo, hi, rfl, rfl⟩
  | [], h => cases h
  | [_], h => cases h

theorem exec_edEscape_eq (s : State) (bytes : List Byte) (i : Instr) (h : decode (0xED :: bytes) = .ok (i, []))
    (hs : s.HoldsAt s.pc bytes) (himm : hasImm16 i = true → s.pc + 1 ≠ 0xFFFF) :
    exec .edEscape s = exec i (s.advance bytes.length) := by
  cases bytes with
  | nil => cases h
  | cons op tail =>
    rw [decode_ed] at h
    obtain ⟨⟨hpc, rfl⟩, htail⟩ := (s.holdsAt_cons s.pc op tail).1 hs
    have hdispatch := exec_edEscape_eq_dispatch s hpc
    obtain ⟨i', hp, hk⟩ | ⟨f, hf, -, hp, hk⟩ := edDispatch_matches (s.byteAt s.pc)
    · rw [hp, runList_done] at h
      cases h
      exact hdispatch.trans (hk _)
    · rw [hp] at h
      obtain ⟨lo, hi, rfl, rfl⟩ := runList_word_eq_ok h
      obtain ⟨hin, hw⟩ := State.wordAt_of_holdsAt htail (himm (hf.hasImm16 _))
      calc exec .edEscape s = (s.advance 1).withImm16 fun nn => exec (f nn) := hdispatch.trans (hk _)
        _ = exec (f (s.wordAt (s.pc + 1))) ((s.advance 1).advance 2) := State.withImm16_eq _ _ hin
        _ = exec (f (joinBytes lo hi)) (s.advance 3) := by rw [hw, State.advance_advance]

/-! ## Completion in the full address space -/

theorem blockLoop_completes {P : State → Prop} {body : State → Except Fault State} (done : State → Bool)
    (hbody : ∀ s, P s → ∃ u, body s = .ok u ∧ P u) (n : Nat) (s : State) (hs : P s) :
    ∃ t, blockLoop body done n s = .ok t := by
  induction n generalizing s with
  | zero => exact ⟨s, rfl⟩
  | succ n ih =>
    obtain ⟨u, hu, hpu⟩ := hbody s hs
    rw [blockLoop_succ body done n s u hu]
    split
    · exact ⟨u, rfl⟩
    · exact ih u hpu

theorem State.ldx_completes (d : Word) (s : State) (h : s.FullRam) : ∃ u, s.ldx d = .ok u ∧ u.FullRam :=
  ⟨_, (s.ldx_ok _ d).2 ⟨s.byteOk_of_fullRam h _, s.byteOk_of_fullRam h _, rfl⟩, h⟩

theorem State.cpx_completes (d : Word) (s : State) (h : s.FullRam) : ∃ u, s.cpx d = .ok u ∧ u.FullRam :=
  ⟨_, (s.cpx_ok _ d).2 ⟨s.byteOk_of_fullRam h _, rfl⟩, h⟩

theorem toResult_completes {r : Except Fault State} (h : ∃ t, r = .ok t) : ∃ t, toResult r = .next t :=
  h.imp fun t ht => (toResult_next r t).2 ht

theorem exec_edRow_completes (i : Instr) (s : State) (h : s.FullRam) (hi : edRow i = true)
    (himm : hasImm16 i = false) : ∃ t, exec i s = .next t := by
  cases i with
  | adcHlRr | sbcHlRr | neg | ldAI => exact ⟨_, rfl⟩
  | rrd | rld => exact ⟨_, (s.rotDec_next _ _).2 ⟨s.byteOk_of_fullRam h _, rfl⟩⟩
  | ldi | ldd => exact toResult_completes ((s.ldx_completes _ h).imp fun _ => And.left)
  | cpi | cpd => exact toResult_completes ((s.cpx_completes _ h).imp fun _ => And.left)
  | ldir | lddr => exact toResult_completes (blockLoop_completes _ (State.ldx_completes _) _ s h)
  | cpir | cpdr => exact toResult_completes (blockLoop_completes _ (State.cpx_completes _) _ s h)
  | ldMemNnRr | ldRrMemNn => cases himm
  | _ => cases hi

theorem exec_edWordRow_completes {f : Word → Instr} (hf : IsEdWordRow f) (nn : Word) (s : State) (h : s.FullRam)
    (hnn : nn ≠ 0xFFFF) : ∃ t, exec (f nn) s = .next t := by
  have hok := s.wordOk_of_fullRam h nn hnn
  obtain ⟨p, rfl | rfl⟩ := hf
  · exact ⟨_, (s.storeWord_next _ nn _).2 ⟨hok, rfl⟩⟩
  · exact ⟨_, (s.withWord_next _ nn _).2 ⟨hok, rfl⟩⟩

theorem exec_decodeCb_completes (op : Byte) (s : State) (h : s.FullRam) : ∃ t, exec (decodeCb op) s = .next t := by
  cases hz : Reg8.ofField (fieldZ op) with
  | some r =>
    rw [exec_decodeCb_reg s hz, State.cbOnReg]
    split <;> exact ⟨_, rfl⟩
  | none =>
    rw [exec_decodeCb_mem s hz]
    exact ⟨_, (s.cbOnMem_next _ op s.hl).2 ⟨s.byteOk_of_fullRam h _, rfl⟩⟩

theorem exec_decodeIdxCb_completes (j : IdxReg) (d : Byte) {op : Byte} (s : State) (hz : fieldZ op = 6)
    (h : s.FullRam) : ∃ t, exec (decodeIdxCb j d op) s = .next t := by
  rw [exec_decodeIdxCb s j d hz]
  exact ⟨_, (s.cbOnMem_next _ op _).2 ⟨s.byteOk_of_fullRam h _, rfl⟩⟩

theorem exec_edEscape_completes (s : State) (h : s.FullRam) (hop : s.byteAt s.pc ∈ edImplemented)
    (hnn : s.byteAt s.pc &&& 0xC7 = 0x43 → s.pc + 1 ≠ 0xFFFF ∧ s.wordAt (s.pc + 1) ≠ 0xFFFF) :
    ∃ t, exec .edEscape s = .next t := by
  have hdispatch := exec_edEscape_eq_dispatch s ((s.byteOk_iff _).1 (s.byteOk_of_fullRam h _))
  obtain ⟨i, hp, hk⟩ | ⟨f, hf, hmask, -, hk⟩ := edDispatch_matches (s.byteAt s.pc)
  · have hrow : edRow i = true := by simpa only [hp, parseAll_done] using decodeEd_edRow hop
    have himm : hasImm16 i = false := by simpa only [hp, wordIsLast_done] using decodeEd_wordIsLast (s.byteAt s.pc)
    rw [hdispatch.trans (hk _)]
    exact exec_edRow_completes i _ h hrow himm
  · obtain ⟨hpc, hnn⟩ := hnn hmask
    have hin : s.WordInside (s.pc + 1) := (s.wordOk_iff _).1 (s.wordOk_of_fullRam h _ hpc)
    rw [hdispatch.trans (hk _), State.withImm16_eq (s.advance 1) _ hin]
    exact exec_edWordRow_completes hf _ _ h hnn

/-- Settles O60: the dispatch of each escape and the decoder of its regime go through the same cases. -/
theorem decoderRows : Obligations.DecoderRows := by
  intro s
  refine ⟨exec_cbEscape_eq s, fun j => exec_cbEscapeIndexed_eq j s, exec_edEscape_eq s, fun hfull => ?_, rfl, rfl,
    fun _ _ => rfl⟩
  have hin (a : Word) : a.toNat < s.cfg.ramSize := (s.byteOk_iff a).1 (s.byteOk_of_fullRam hfull a)
  refine ⟨?_, fun j hz => ?_, exec_edEscape_completes s hfull⟩
  · rw [exec_cbEscape_eq s (hin _)]
    exact exec_decodeCb_completes _ _ hfull
  · rw [exec_cbEscapeIndexed_eq j s (hin _) (hin _)]
    exact exec_decodeIdxCb_completes j _ _ ((fieldZ_eq_six_iff _).2 hz) hfull

end Sys2Proof.Machine
end

section
/-! Jumps, calls, returns and the rows that fault in every state (47_control_flow.md). -/

namespace Sys2Proof.Machine

/-! ## Jumps (R340 to R345) -/

/-- A conditional jump in one form: where it is not taken, it writes the PC that is there. -/
theorem State.next_jump_ite (s : State) (c : Prop) [Decidable c] (target : Word) :
    (if c then .next (s.jump target) else .next s : Result) =
      .next { s with pc := if c then target else s.pc } := by
  split <;> rfl

/-- DJNZ is a conditional jump of the state in which B is decremented; B reaches 0 from 1 only. -/
theorem exec_djnz_eq_next (e : Byte) (s : State) :
    exec (.djnz e) s =
      .next { s with
        main := { s.main with b := s.main.b - 1 }
        pc := if s.main.b = 1 then s.pc else s.pc + e.signExtend 16 } := by
  have hzero : s.main.b - 1 = 0 ↔ s.main.b = 1 := sub_eq_zero
  rw [exec_djnz, execDjnz]
  refine ((s.setR8 .b (s.main.b - 1)).next_jump_ite _ (s.pc + sext e)).trans ?_
  simp only [ne_eq, ite_not, hzero]
  rfl

/-- Settles O52: every jump is one `jump`, and every conditional one has the form of `State.next_jump_ite`. -/
theorem jumps : Obligations.Jumps := by
  intro s
  refine ⟨⟨rfl, rfl, rfl, rfl, rfl, rfl, rfl, rfl⟩, ⟨rfl, rfl, rfl, rfl⟩, fun nn => rfl, fun cc nn => ?_, rfl,
    fun j => rfl, fun e => rfl, fun cc e => ?_, fun e => exec_djnz_eq_next e s⟩
  · exact s.next_jump_ite (s.cond cc = true) nn
  · exact s.next_jump_ite (s.condShort cc = true) (s.pc + sext e)

/-! ## Calls and returns (R348 to R351) -/

/-- A call is one `push16` of PC and a jump, which does not touch memory. -/
theorem State.call_completes (s : State) (nn : Word) (hw : s.mem.wf = true) (ha : s.WordInside (s.sp - 2)) :
    ∃ t, s.call nn = .next t ∧ StoresWord { s with sp := s.sp - 2, pc := nn } t (s.sp - 2) s.pc := by
  obtain ⟨u, hu, hst⟩ := s.push16_completes s.pc hw ha
  exact ⟨u.jump nn, (s.call_next _ nn).2 ⟨u, hu, rfl⟩, hst.map (f := (State.jump · nn)) fun _ _ => rfl⟩

theorem State.call_eq_fault (s : State) (nn : Word) (ha : ¬ s.WordInside (s.sp - 2)) :
    s.call nn = .fault (.memoryOutOfRange (s.sp - 2)) := by
  rw [State.call, s.push16_eq_error s.pc ha]

theorem State.doRet_eq_next (s : State) (ha : s.WordInside s.sp) :
    s.doRet = .next { s with
      sp := s.sp + 2
      pc := s.wordAt s.sp
      running := if s.wordAt s.sp = 0x0000 then false else s.running } :=
  (s.doRet_next _).2 ⟨(s.wordOk_iff s.sp).2 ha, rfl⟩

theorem State.doRet_eq_fault (s : State) (ha : ¬ s.WordInside s.sp) :
    s.doRet = .fault (.memoryOutOfRange s.sp) := by
  rw [State.doRet, s.pop16_eq_error ha]

section Conditional
variable {s : State} {cc : Cond}

theorem exec_callCcNn_of_cond (h : s.cond cc = true) (nn : Word) : exec (.callCcNn cc nn) s = s.call nn := if_pos h

theorem exec_retCc_of_cond (h : s.cond cc = true) : exec (.retCc cc) s = s.doRet := if_pos h

theorem exec_callCcNn_of_not_cond (h : s.cond cc = false) (nn : Word) : exec (.callCcNn cc nn) s = .next s :=
  if_neg (Bool.eq_false_iff.1 h)

theorem exec_retCc_of_not_cond (h : s.cond cc = false) : exec (.retCc cc) s = .next s :=
  if_neg (Bool.eq_false_iff.1 h)

end Conditional

/-- Settles O53: the plain form is `call` or `doRet`, and so is the conditional form where its condition holds. -/
theorem callsAndReturns : Obligations.CallsAndReturns := by
  intro s hw
  refine ⟨fun nn ha => ?_, fun nn ha => ?_, fun ha => ?_, fun ha => ?_, fun cc hcc => ?_⟩
  · have hcall := s.call_completes nn hw ha
    exact ⟨hcall, fun cc hcc => exec_callCcNn_of_cond hcc nn ▸ hcall⟩
  · have hcall := s.call_eq_fault nn ha
    exact ⟨hcall, fun cc hcc => (exec_callCcNn_of_cond hcc nn).trans hcall⟩
  · have hret := s.doRet_eq_next ha
    exact ⟨hret, fun cc hcc => (exec_retCc_of_cond hcc).trans hret⟩
  · have hret := s.doRet_eq_fault ha
    exact ⟨hret, fun cc hcc => (exec_retCc_of_cond hcc).trans hret⟩
  · exact ⟨exec_retCc_of_not_cond hcc, exec_callCcNn_of_not_cond hcc⟩

/-! ## The rows that fault in every state (R353; 30_encoding.md R123, R124) -/

/-- Settles O59: the bytes that each of the three rows answers are those of its encoding. -/
theorem unimplementedOpcodes : Obligations.UnimplementedOpcodes := fun s =>
  ⟨fun y => exec_rstP y s, fun op => exec_edOther op s, fun j d op => exec_idxCbOther j d op s⟩

end Sys2Proof.Machine
end

section
/-! Reset, and the steps that have no next state (70_reset_and_hazards.md; 40_instruction_cycle.md R136;
60_exceptions.md R422). -/

namespace Sys2Proof.Machine

/-- Settles O1: construction is the reset table, of which the pairs are views; a byte that no write has listed reads as
zero. -/
theorem resetWholeState : Obligations.ResetWholeState := by
  intro cfg
  have hpairs : joinBytes 0xFF 0xFF = 0xFFFF ∧ joinBytes 0xFF 0x00 = 0x00FF ∧ joinBytes 0xFF 0x03 = 0x03FF ∧
      joinBytes 0x00 0x00 = 0x0000 := by decide
  obtain ⟨haf, hbc, hde, hhl⟩ := hpairs
  exact ⟨haf, hbc, hde, hhl, rfl, rfl, rfl, rfl, rfl, rfl, rfl, rfl, rfl, rfl, fun _ => rfl⟩

theorem step_of_not_running {s : State} (h : s.running = false) : step s = .refused .notRunning := by
  rw [step, cycle, if_pos (by simp [h])]

/-- Where memory holds nothing but `DD` and `FD`, absorption uses up any number of passes (R136, decision D23). -/
theorem absorb_endless (n : Nat) (s : State) (hfull : s.FullRam)
    (h : ∀ a : Word, s.byteAt a = 0xDD ∨ s.byteAt a = 0xFD) : absorb n s = .error .endlessPrefixRun := by
  induction n generalizing s with
  | zero => rfl
  | succ n ih =>
    have hpc : s.HoldsAt s.pc [s.byteAt s.pc] :=
      (s.holdsAt_cons s.pc _ []).2 ⟨⟨(s.byteOk_iff _).1 (s.byteOk_of_fullRam hfull _), rfl⟩, nofun⟩
    rw [absorb_prefix (h s.pc) hpc]
    exact ih _ hfull h

/-- Settles O17: the first check of a step asks for `running`, and the fetch absorbs `DD` and `FD` bytes until it
gives up. -/
theorem stepsWithoutNextState : Obligations.StepsWithoutNextState := by
  refine ⟨fun s => step_of_not_running, fun s hf hfull h => step_of_fetch_error hf ?_⟩
  have habsorb : absorb 65536 (State.setLatch { s with starting := false } .none) = .error .endlessPrefixRun :=
    absorb_endless 65536 _ hfull h
  rw [fetchInstr, habsorb]

end Sys2Proof.Machine
end

section
/-! Input, output and control (49_io_misc.md; 47_control_flow.md R352). -/

namespace Sys2Proof.Machine

/-- The default device answers 0x00 (20_memory.md R82). -/
theorem State.deviceByte_of_null {s : State} (h : s.cfg.device = .null) : s.deviceByte = 0x00 := by
  rw [State.deviceByte, h]

/-- Settles O58: IN gives A the device's byte, whatever it is; the other rows are one named update or none. -/
theorem ioAndControl : Obligations.IoAndControl := fun s =>
  ⟨fun _ => ⟨s.deviceByte, rfl, State.deviceByte_of_null⟩, fun _ => rfl, rfl, rfl, rfl, rfl, rfl⟩

end Sys2Proof.Machine
end

section
/-! One pass of the block instructions, and the sequencer (48_block.md). -/

namespace Sys2Proof.Machine

/-! ## The flag rules of a pass (R371, R375) -/

theorem flagByte_s (s z y h x pv n c : Bool) : (flagByte s z y h x pv n c).getLsbD 7 = s := by
  simp only [flagByte, BitVec.getLsbD_or, getLsbD_flagIf]
  simp

theorem flagByte_z (s z y h x pv n c : Bool) : (flagByte s z y h x pv n c).getLsbD 6 = z := by
  simp only [flagByte, BitVec.getLsbD_or, getLsbD_flagIf]
  simp

theorem flagByte_pv (s z y h x pv n c : Bool) : (flagByte s z y h x pv n c).getLsbD 2 = pv := by
  simp only [flagByte, BitVec.getLsbD_or, getLsbD_flagIf]
  simp

theorem blockYx_eq (n : Byte) : blockYx n = flagIf (n.getLsbD 1) yMask ||| flagIf (n.getLsbD 3) xMask := by
  have hbit : decide (n &&& 0x02 ≠ 0) = n.getLsbD 1 := by
    rw [show n &&& 0x02 = flagIf (n.getLsbD 1) nMask from and_nMask n]
    cases n.getLsbD 1 <;> rfl
  rw [blockYx, and_xMask, hbit, BitVec.or_comm]

theorem ldxFlags_eq_flagByte (f a v : Byte) (bc : Word) :
    ldxFlags f a v bc =
      flagByte (f.getLsbD 7) (f.getLsbD 6) ((v + a).getLsbD 1) false ((v + a).getLsbD 3) (bc ≠ 0) false
        (f.getLsbD 0) := by
  simp only [ldxFlags, flagByte_eq_masks, BitVec.and_or_distrib_left, and_sMask, and_zMask, and_cMask, blockYx_eq,
    flagIf_false]
  ac_rfl

/-- A bit of a difference that differs from the exclusive or of the operands' bits has a borrow into it; bit 4 shows the
borrow of the low nibble. -/
theorem sub_halfBorrow (a v : Byte) : (a ^^^ v ^^^ (a - v)).getLsbD 4 = decide (a.toNat % 16 < v.toNat % 16) := by
  have hbit : a.getLsbD 4 = ((a - v).getLsbD 4 ^^ (v.getLsbD 4 ^^ BitVec.carry 4 (a - v) v false)) := by
    rw [← BitVec.getLsbD_add (by decide), BitVec.sub_add_cancel]
  have hcancel (p q r : Bool) : (p ^^ (q ^^ r) ^^ q ^^ p) = r := by revert p q r; decide
  have hsub := sub8_toNat a v false
  rw [sub8_false, Bool.toNat_false] at hsub
  rw [BitVec.getLsbD_xor, BitVec.getLsbD_xor, hbit, hcancel, BitVec.carry, decide_eq_decide, Bool.toNat_false]
  omega

theorem cpxFlags_eq_flagByte (f a v : Byte) (bc : Word) :
    let half : Bool := a.toNat % 16 < v.toNat % 16
    let n := a - v - (if half then 1 else 0)
    cpxFlags f a v bc =
      flagByte ((a - v).getLsbD 7) (a = v) (n.getLsbD 1) half (n.getLsbD 3) (bc ≠ 0) true (f.getLsbD 0) := by
  intro half n
  have hz : decide (a - v = 0) = decide (a = v) := decide_eq_decide.2 sub_eq_zero
  have hh : (a ^^^ v ^^^ (a - v)) &&& hMask = flagIf half hMask := by rw [and_hMask, sub_halfBorrow]
  have hborrow (b : Bool) : (if flagIf b hMask ≠ 0 then (1 : Byte) else 0) = if b then 1 else 0 := by
    revert b
    decide
  have hn : a - v - (if half then 1 else 0) = n := rfl
  simp only [cpxFlags, hh, hborrow, hn, flagByte_eq_masks, BitVec.and_or_distrib_left, and_sMask, and_zMask, and_cMask,
    blockYx_eq, sz_s, sz_z, hz, flagIf_true]
  ac_rfl

/-! ## A pass as a function of the state, and its faults (R371, R372, R375, R376; decision D3) -/

/-- The registers after a pass of a transfer with direction `d` (decision D17). -/
def State.moved (d : Word) (s : State) : State :=
  let bc := s.bc - 1
  let n := s.byteAt s.hl + s.main.a
  { s with
    main := { s.main with
      b := hiByte bc, c := loByte bc, d := hiByte (s.de + d), e := loByte (s.de + d)
      h := hiByte (s.hl + d), l := loByte (s.hl + d)
      f := flagByte s.flagS s.flagZ (n.getLsbD 1) false (n.getLsbD 3) (bc ≠ 0) false s.flagC } }

/-- A pass of a transfer where both accesses are inside memory. -/
def State.transferred (d : Word) (s : State) : State :=
  { s.moved d with mem := s.mem.put s.de.toNat (s.byteAt s.hl) }

/-- A pass of a search where the access is inside memory. -/
def State.searched (d : Word) (s : State) : State :=
  let bc := s.bc - 1
  let v := s.byteAt s.hl
  let half : Bool := s.main.a.toNat % 16 < v.toNat % 16
  let n := s.main.a - v - (if half then 1 else 0)
  { s with
    main := { s.main with
      b := hiByte bc, c := loByte bc, h := hiByte (s.hl + d), l := loByte (s.hl + d)
      f := flagByte ((s.main.a - v).getLsbD 7) (s.main.a = v) (n.getLsbD 1) half (n.getLsbD 3) (bc ≠ 0) true
        s.flagC } }

section Pass
variable {s : State} (d : Word)

theorem State.ldx_eq_transferred (hhl : s.hl.toNat < s.cfg.ramSize) (hde : s.de.toNat < s.cfg.ramSize) :
    s.ldx d = .ok (s.transferred d) := by
  refine (s.ldx_ok _ d).2 ⟨(s.byteOk_iff _).2 hhl, (s.byteOk_iff _).2 hde, ?_⟩
  rw [ldxFlags_eq_flagByte]
  rfl

theorem State.cpx_eq_searched (hhl : s.hl.toNat < s.cfg.ramSize) : s.cpx d = .ok (s.searched d) := by
  refine (s.cpx_ok _ d).2 ⟨(s.byteOk_iff _).2 hhl, ?_⟩
  rw [cpxFlags_eq_flagByte]
  rfl

theorem State.ldx_eq_read_error (hhl : ¬ s.hl.toNat < s.cfg.ramSize) :
    s.ldx d = .error (.memoryOutOfRange s.hl) := by
  rw [State.ldx, s.memRead8_eq_error s.hl hhl]

theorem State.ldx_eq_write_error (hhl : s.hl.toNat < s.cfg.ramSize) (hde : ¬ s.de.toNat < s.cfg.ramSize) :
    s.ldx d = .error (.memoryOutOfRange s.de) := by
  simp only [State.ldx, s.memRead8_eq s.hl ((s.byteOk_iff _).2 hhl), s.memWrite8_eq_error s.de _ hde]

theorem State.cpx_eq_error (hhl : ¬ s.hl.toNat < s.cfg.ramSize) : s.cpx d = .error (.memoryOutOfRange s.hl) := by
  rw [State.cpx, s.memRead8_eq_error s.hl hhl]

/-- A transfer writes the registers of `moved`, and the one byte it copies. -/
theorem State.transferred_stores (hw : s.mem.wf = true) (hde : s.de.toNat < s.cfg.ramSize) :
    StoresByte (s.moved d) (s.transferred d) s.de (s.byteAt s.hl) := by
  obtain ⟨-, hv, hother⟩ :=
    s.memWrite8_stores _ s.de (s.byteAt s.hl) hw ((s.memWrite8_ok s.de _ _).2 ⟨(s.byteOk_iff _).2 hde, rfl⟩)
  exact ⟨rfl, hv, hother⟩

end Pass

/-- Settles O54: outside memory the read of the byte at HL comes first, then the write at DE. -/
theorem blockPasses : Obligations.BlockPasses := by
  intro s hw v a bc moved searched
  have hnext {r : Except Fault State} {t : State} (h : r = .ok t) : toResult r = .next t := congrArg toResult h
  have hfault {r : Except Fault State} {e : Fault} (h : r = .error e) : toResult r = .fault e := congrArg toResult h
  split
  case isTrue hhl =>
    refine ⟨hnext (s.cpx_eq_searched 1 hhl), hnext (s.cpx_eq_searched (-1) hhl), ?_⟩
    split
    case isTrue hde =>
      exact ⟨⟨_, hnext (s.ldx_eq_transferred 1 hhl hde), s.transferred_stores 1 hw hde⟩,
        _, hnext (s.ldx_eq_transferred (-1) hhl hde), s.transferred_stores (-1) hw hde⟩
    case isFalse hde =>
      exact ⟨hfault (s.ldx_eq_write_error 1 hhl hde), hfault (s.ldx_eq_write_error (-1) hhl hde)⟩
  case isFalse hhl =>
    exact ⟨hfault (s.cpx_eq_error 1 hhl), hfault (s.cpx_eq_error (-1) hhl), hfault (s.ldx_eq_read_error 1 hhl),
      hfault (s.ldx_eq_read_error (-1) hhl)⟩

/-! ## The sequencer unrolled by one pass (R370, R380) -/

section Repeating
variable {body : State → Except Fault State} {done : State → Bool} {once again : Instr}

/-- The passes left after the first are those of the BC it leaves. -/
theorem blockLoop_passes (hbc : ∀ s u, body s = .ok u → u.bc = s.bc - 1) (hdone : ∀ u, u.bc = 0 → done u = true)
    {s u : State} (h : body s = .ok u) :
    blockLoop body done (passes s.bc) s = if done u then .ok u else blockLoop body done (passes u.bc) u := by
  by_cases hzero : u.bc = 0
  · rw [passes, blockLoop_succ body done _ s u h, if_pos (hdone u hzero), if_pos (hdone u hzero)]
  · have hu := hbc s u h
    rw [passes_pred s.bc (hu ▸ hzero), ← hu, blockLoop_succ body done _ s u h]

variable (honce : ∀ s, exec once s = toResult (body s))
  (hagain : ∀ s, exec again s = toResult (blockLoop body done (passes s.bc) s))
include honce hagain

theorem exec_repeating_of_next {exit : State → Prop} [DecidablePred exit] (hdone : ∀ u, done u = true ↔ exit u)
    (hbc : ∀ s u, body s = .ok u → u.bc = s.bc - 1) (hzero : ∀ u, u.bc = 0 → exit u) {s u : State}
    (h : exec once s = .next u) : exec again s = if exit u then .next u else exec again u := by
  rw [honce, toResult_next] at h
  rw [hagain, hagain, blockLoop_passes hbc (fun u hu => (hdone u).2 (hzero u hu)) h, if_congr (hdone u) rfl rfl]
  split <;> rfl

/-- There is always a first pass. -/
theorem exec_repeating_of_fault {s : State} {e : Fault} (h : exec once s = .fault e) : exec again s = .fault e := by
  rw [honce] at h
  rw [hagain, passes, blockLoop]
  cases hb : body s with
  | ok u => rw [hb] at h; cases h
  | error e' => rw [hb] at h; exact h

end Repeating

theorem State.ldx_bc (d : Word) (s u : State) (h : s.ldx d = .ok u) : u.bc = s.bc - 1 := by
  obtain ⟨-, -, hbc, -⟩ := s.ldx_fields u d h
  exact hbc

theorem State.cpx_bc (d : Word) (s u : State) (h : s.cpx d = .ok u) : u.bc = s.bc - 1 := by
  obtain ⟨-, -, hbc, -⟩ := s.cpx_fields u d h
  exact hbc

theorem State.bcZero_iff (s : State) : s.bcZero = true ↔ s.bc = 0 := decide_eq_true_iff

theorem State.bcZeroOrMatch_iff (s : State) : s.bcZeroOrMatch = true ↔ s.bc = 0 ∨ s.flagZ = true := by
  rw [State.bcZeroOrMatch, Bool.or_eq_true, decide_eq_true_iff]

/-- Settles O55: the four forms are one sequencer, over two passes and two exit tests. -/
theorem repeatingFormsIterate : Obligations.RepeatingFormsIterate := fun _ _ =>
  ⟨exec_repeating_of_next exec_ldi exec_ldir State.bcZero_iff (State.ldx_bc 1) fun _ => id,
    exec_repeating_of_next exec_ldd exec_lddr State.bcZero_iff (State.ldx_bc (-1)) fun _ => id,
    exec_repeating_of_next exec_cpi exec_cpir State.bcZeroOrMatch_iff (State.cpx_bc 1) fun _ => .inl,
    exec_repeating_of_next exec_cpd exec_cpdr State.bcZeroOrMatch_iff (State.cpx_bc (-1)) fun _ => .inl,
    fun _ => ⟨exec_repeating_of_fault exec_ldi exec_ldir, exec_repeating_of_fault exec_ldd exec_lddr,
      exec_repeating_of_fault exec_cpi exec_cpir, exec_repeating_of_fault exec_cpd exec_cpdr⟩⟩

end Sys2Proof.Machine
end

section
/-! The repeating forms in the full address space: a pass is a total function there, and the whole is that function
iterated (48_block.md R373, R374, R377, R378, R380). -/

namespace Sys2Proof.Machine

/-! ## The loop as an iteration -/

/-- A loop that is done at the latest after `n` passes is the iteration of its pass up to the first time it is done. -/
theorem blockLoop_iterate {body : State → Except Fault State} {done : State → Bool} {f : State → State}
    {P : State → Prop} (hbody : ∀ u, P u → body u = .ok (f u) ∧ P (f u)) {n : Nat} {s : State} (hn : 0 < n) (hs : P s)
    (hlast : done (f^[n] s) = true) :
    ∃ k, k < n ∧ blockLoop body done n s = .ok (f^[k + 1] s) ∧ done (f^[k + 1] s) = true ∧
      ∀ j, j < k → done (f^[j + 1] s) = false := by
  induction n generalizing s with
  | zero => cases hn
  | succ n ih =>
    obtain ⟨hu, hPu⟩ := hbody s hs
    rw [blockLoop_succ body done n s _ hu]
    by_cases hdone : done (f s) = true
    · exact ⟨0, hn, if_pos hdone, hdone, nofun⟩
    · have hn : 0 < n := Nat.pos_of_ne_zero fun h => hdone (by simpa [h] using hlast)
      obtain ⟨k, hk, hloop, hend, hbefore⟩ := ih hn hPu hlast
      refine ⟨k + 1, Nat.succ_lt_succ hk, (if_neg hdone).trans hloop, hend, fun j hj => ?_⟩
      cases j with
      | zero => exact Bool.eq_false_iff.2 hdone
      | succ j => exact hbefore j (Nat.lt_of_succ_lt_succ hj)

/-- A word that each pass moves by `c` has moved by `k` times `c` after `k` passes. -/
theorem iterate_add {f : State → State} {g : State → Word} {c : Word} (h : ∀ u, g (f u) = g u + c) (k : Nat)
    (s : State) : g (f^[k] s) = g s + BitVec.ofNat 16 k * c := by
  induction k with
  | zero => simp
  | succ k ih => rw [Function.iterate_succ_apply', h, ih, BitVec.ofNat_add, add_mul, add_assoc, BitVec.one_mul]

theorem iterate_sub_one {f : State → State} {g : State → Word} (h : ∀ u, g (f u) = g u - 1) (k : Nat) (s : State) :
    g (f^[k] s) = g s - BitVec.ofNat 16 k := by
  rw [iterate_add (c := -1) (fun u => (h u).trans (sub_eq_add_neg _ _)), mul_neg_one, ← sub_eq_add_neg]

/-! ## BC after some of the passes (R380) -/

theorem ofNat_passes (bc : Word) : BitVec.ofNat 16 (passes bc) = bc := by
  rw [passes, BitVec.ofNat_add, BitVec.ofNat_toNat, BitVec.setWidth_eq]
  exact BitVec.sub_add_cancel bc 1

/-- BC reaches zero with the last pass and not before. -/
theorem bc_sub_eq_zero_iff {bc : Word} {k : Nat} (hk : k < passes bc) :
    bc - BitVec.ofNat 16 (k + 1) = 0 ↔ k + 1 = passes bc := by
  have hle : passes bc ≤ 65536 := (bc - 1).isLt
  constructor
  · intro h
    have hword : BitVec.ofNat 16 (passes bc) = BitVec.ofNat 16 (k + 1) := (ofNat_passes bc).trans (sub_eq_zero.1 h)
    have hmod : passes bc % 65536 = (k + 1) % 65536 := congrArg BitVec.toNat hword
    omega
  · intro h
    rw [h, ofNat_passes, sub_self]

/-! ## The passes of a search (R375 to R378) -/

section Search
variable (d : Word) (s : State)

@[simp] theorem State.searched_hl : (s.searched d).hl = s.hl + d := joinBytes_lo_hi _
@[simp] theorem State.searched_bc : (s.searched d).bc = s.bc - 1 := joinBytes_lo_hi _
@[simp] theorem State.searched_flagZ : (s.searched d).flagZ = decide (s.main.a = s.byteAt s.hl) := flagByte_z ..
@[simp] theorem State.searched_flagPV : (s.searched d).flagPV = decide (s.bc - 1 ≠ 0) := flagByte_pv ..
@[simp] theorem State.searched_flagN : (s.searched d).flagN = true := flagByte_n ..
@[simp] theorem State.searched_flagC : (s.searched d).flagC = s.flagC := flagByte_c ..

end Search

/-- `t` is `s` after some passes of a search, as far as they keep it: BC, HL and F but its C are free. -/
def SearchKeeps (s t : State) : Prop :=
  t = { s with main := t.main } ∧ t.main.a = s.main.a ∧ t.de = s.de ∧ t.flagC = s.flagC

theorem searchKeeps_iterate (d : Word) (k : Nat) (s : State) : SearchKeeps s ((State.searched d)^[k] s) := by
  refine Function.Iterate.rec (SearchKeeps s) ⟨rfl, rfl, rfl, rfl⟩ (fun u hu => ?_) k
  obtain ⟨hframe, ha, hde, hc⟩ := hu
  exact ⟨congrArg (fun v : State => { v with main := (u.searched d).main }) hframe, ha, hde,
    (u.searched_flagC d).trans hc⟩

theorem bc_searched_iterate (d : Word) (k : Nat) (s : State) :
    ((State.searched d)^[k] s).bc = s.bc - BitVec.ofNat 16 k :=
  iterate_sub_one (State.searched_bc d) k s

/-- Z after a pass: the byte it compared is A. -/
theorem flagZ_searched_iterate (d : Word) (k : Nat) (s : State) :
    ((State.searched d)^[k + 1] s).flagZ = true ↔ s.byteAt (s.hl + BitVec.ofNat 16 k * d) = s.main.a := by
  obtain ⟨hframe, ha, -⟩ := searchKeeps_iterate d k s
  rw [Function.iterate_succ_apply', State.searched_flagZ, decide_eq_true_iff, ha, iterate_add (State.searched_hl d),
    hframe]
  exact eq_comm

/-- The loop of CPIR and CPDR: the iteration of the pass up to the first that leaves BC = 0 or Z = 1. -/
theorem blockLoop_search (d : Word) {s : State} (hfull : s.FullRam) :
    ∃ k, k < passes s.bc ∧
      blockLoop (State.cpx · d) State.bcZeroOrMatch (passes s.bc) s = .ok ((State.searched d)^[k + 1] s) ∧
      State.bcZeroOrMatch ((State.searched d)^[k + 1] s) = true ∧
      ∀ j, j < k → State.bcZeroOrMatch ((State.searched d)^[j + 1] s) = false := by
  have hpass (u : State) (hu : u.FullRam) : u.cpx d = .ok (u.searched d) ∧ (u.searched d).FullRam :=
    ⟨u.cpx_eq_searched d ((u.byteOk_iff _).1 (u.byteOk_of_fullRam hu _)), hu⟩
  refine blockLoop_iterate hpass (passes_pos s.bc) hfull ((State.bcZeroOrMatch_iff _).2 (.inl ?_))
  rw [bc_searched_iterate, ofNat_passes, sub_self]

/-- Settles O57: the loop is done at the first pass that finds A, and at the latest with BC = 0. -/
theorem repeatedSearch : Obligations.RepeatedSearch := by
  intro s hfull i d hi
  have hexec : exec i s = toResult (blockLoop (State.cpx · d) State.bcZeroOrMatch (passes s.bc) s) := by
    obtain ⟨rfl, rfl⟩ | ⟨rfl, rfl⟩ := hi <;> rfl
  obtain ⟨k, hk, hloop, hend, hbefore⟩ := blockLoop_search d hfull
  obtain ⟨hframe, ha, hde, hc⟩ := searchKeeps_iterate d (k + 1) s
  refine ⟨_, k + 1, hexec.trans (congrArg toResult hloop), Nat.succ_pos k, passes_eq s.bc ▸ hk,
    bc_searched_iterate d (k + 1) s, iterate_add (State.searched_hl d) (k + 1) s, hde, ha, hframe,
    fun j hj hmatch => ?_, flagZ_searched_iterate d k s, ((State.bcZeroOrMatch_iff _).1 hend).symm, ?_, ?_, hc⟩
  · have hz := (flagZ_searched_iterate d j s).2 hmatch
    have hgoes := hbefore j (Nat.lt_of_succ_lt_succ hj)
    rw [(State.bcZeroOrMatch_iff _).2 (.inr hz)] at hgoes
    cases hgoes
  · rw [Function.iterate_succ_apply', State.searched_flagPV, State.searched_bc]
  · rw [Function.iterate_succ_apply', State.searched_flagN]

/-! ## The passes of a transfer (R371 to R374) -/

section Transfer
variable (d : Word) (s : State)

@[simp] theorem State.transferred_hl : (s.transferred d).hl = s.hl + d := joinBytes_lo_hi _
@[simp] theorem State.transferred_de : (s.transferred d).de = s.de + d := joinBytes_lo_hi _
@[simp] theorem State.transferred_bc : (s.transferred d).bc = s.bc - 1 := joinBytes_lo_hi _
@[simp] theorem State.transferred_flagS : (s.transferred d).flagS = s.flagS := flagByte_s ..
@[simp] theorem State.transferred_flagZ : (s.transferred d).flagZ = s.flagZ := flagByte_z ..
@[simp] theorem State.transferred_flagC : (s.transferred d).flagC = s.flagC := flagByte_c ..

end Transfer

/-- `t` is `s` after some passes of a transfer, as far as they keep it: BC, DE, HL, memory and the other flags are
free. -/
def TransferKeeps (s t : State) : Prop :=
  t = { s with main := t.main, mem := t.mem } ∧ t.main.a = s.main.a ∧ t.mem.wf = true ∧
    t.flagS = s.flagS ∧ t.flagZ = s.flagZ ∧ t.flagC = s.flagC

theorem transferKeeps_iterate (d : Word) (k : Nat) {s : State} (hw : s.mem.wf = true) :
    TransferKeeps s ((State.transferred d)^[k] s) := by
  refine Function.Iterate.rec (TransferKeeps s) ⟨rfl, rfl, hw, rfl, rfl, rfl⟩ (fun u hu => ?_) k
  obtain ⟨hframe, ha, hwf, hs, hz, hc⟩ := hu
  exact ⟨congrArg (fun v : State => { v with main := (u.transferred d).main, mem := (u.transferred d).mem }) hframe, ha,
    Memory.put_wf _ _ _ hwf, (u.transferred_flagS d).trans hs, (u.transferred_flagZ d).trans hz,
    (u.transferred_flagC d).trans hc⟩

/-- F after a pass, from the byte it copied, which is at the DE before it (R371). -/
theorem State.transferred_f {d : Word} {s t : State} (hw : s.mem.wf = true) (ht : t = s.transferred d) :
    let n := t.byteAt (t.de - d) + s.main.a
    t.main.f = flagByte s.flagS s.flagZ (n.getLsbD 1) false (n.getLsbD 3) (t.bc ≠ 0) false s.flagC := by
  subst ht
  have hcopy : (s.transferred d).byteAt s.de = s.byteAt s.hl := Memory.get_put_same _ _ _ hw
  rw [State.transferred_de, add_sub_cancel_right, hcopy, State.transferred_bc]
  rfl

/-- A copy byte by byte, each read from the memory that the writes before it have left: where no write hits a byte still
to be read or written, the destination receives the source, and nothing else changes. -/
theorem Memory.copy_of_steps {m : Nat → Memory} {src dst : Nat → Nat} {n : Nat} (hwf : ∀ k, (m k).wf = true)
    (hstep : ∀ k, k < n → m (k + 1) = (m k).put (dst k) ((m k).get (src k)))
    (hahead : ∀ i j, i < j → j < n → dst i ≠ src j ∧ dst i ≠ dst j) :
    (∀ k, k < n → (m n).get (dst k) = (m 0).get (src k)) ∧
      ∀ a, (∀ k, k < n → a ≠ dst k) → (m n).get a = (m 0).get a := by
  induction n with
  | zero => exact ⟨nofun, fun _ _ => rfl⟩
  | succ n ih =>
    obtain ⟨hcopied, hother⟩ := ih (fun k hk => hstep k (Nat.lt_succ_of_lt hk))
      fun i j hij hj => hahead i j hij (Nat.lt_succ_of_lt hj)
    have hlast := hstep n (Nat.lt_succ_self n)
    have hread : (m n).get (src n) = (m 0).get (src n) :=
      hother _ fun k hk => (hahead k n hk (Nat.lt_succ_self n)).1.symm
    refine ⟨fun k hk => ?_, fun a ha => ?_⟩
    · rw [hlast]
      obtain hk | rfl := Nat.lt_succ_iff_lt_or_eq.1 hk
      · rw [Memory.get_put_other _ _ _ _ (hwf n) (hahead k n hk (Nat.lt_succ_self n)).2, hcopied k hk]
      · rw [Memory.get_put_same _ _ _ (hwf k), hread]
    · rw [hlast, Memory.get_put_other _ _ _ _ (hwf n) (ha n (Nat.lt_succ_self n)),
        hother a fun k hk => ha k (Nat.lt_succ_of_lt hk)]

/-! ## The whole transfer (R373, R374) -/

theorem bc_transferred_iterate (d : Word) (k : Nat) (s : State) :
    ((State.transferred d)^[k] s).bc = s.bc - BitVec.ofNat 16 k :=
  iterate_sub_one (State.transferred_bc d) k s

/-- The loop of LDIR and LDDR is not done before BC is zero, and so runs all its passes. -/
theorem blockLoop_transfer (d : Word) {s : State} (hfull : s.FullRam) :
    blockLoop (State.ldx · d) State.bcZero (passes s.bc) s = .ok ((State.transferred d)^[passes s.bc] s) := by
  have hpass (u : State) (hu : u.FullRam) : u.ldx d = .ok (u.transferred d) ∧ (u.transferred d).FullRam := by
    have hin (a : Word) : a.toNat < u.cfg.ramSize := (u.byteOk_iff a).1 (u.byteOk_of_fullRam hu a)
    exact ⟨u.ldx_eq_transferred d (hin _) (hin _), hu⟩
  have hlast : State.bcZero ((State.transferred d)^[passes s.bc] s) = true :=
    (State.bcZero_iff _).2 (by rw [bc_transferred_iterate, ofNat_passes, sub_self])
  obtain ⟨k, hk, hloop, hend, -⟩ := blockLoop_iterate hpass (passes_pos s.bc) hfull hlast
  rw [State.bcZero_iff, bc_transferred_iterate, bc_sub_eq_zero_iff hk] at hend
  rwa [hend] at hloop

theorem transfer_registers (d : Word) {s : State} (hw : s.mem.wf = true) :
    let t := (State.transferred d)^[passes s.bc] s
    t.bc = 0 ∧ t.hl = s.hl + s.bc * d ∧ t.de = s.de + s.bc * d ∧ t.main.a = s.main.a ∧
      (let n := t.byteAt (t.de - d) + s.main.a
       t.main.f = flagByte s.flagS s.flagZ (n.getLsbD 1) false (n.getLsbD 3) false false s.flagC) ∧
      t = { s with main := t.main, mem := t.mem } := by
  intro t
  obtain ⟨hframe, ha, -⟩ := transferKeeps_iterate d (passes s.bc) hw
  have hbc : t.bc = 0 := by rw [bc_transferred_iterate, ofNat_passes, sub_self]
  have hhl : t.hl = s.hl + s.bc * d := by rw [iterate_add (State.transferred_hl d), ofNat_passes]
  have hde : t.de = s.de + s.bc * d := by rw [iterate_add (State.transferred_de d), ofNat_passes]
  refine ⟨hbc, hhl, hde, ha, ?_, hframe⟩
  obtain ⟨-, hua, huw, hus, huz, huc⟩ := transferKeeps_iterate d (s.bc - 1).toNat hw
  have ht : t = ((State.transferred d)^[(s.bc - 1).toNat] s).transferred d := Function.iterate_succ_apply' _ _ _
  have hf := State.transferred_f huw ht
  rw [hbc, hua, hus, huz, huc] at hf
  exact hf

/-- The bytes a transfer moves, where its addresses are the numbers `src k` and `dst k` and no write hits a byte still to
be read or written. -/
theorem transfer_copies {d : Word} {s : State} {src dst : Nat → Nat} (hw : s.mem.wf = true) (hbc : s.bc ≠ 0)
    (hsrc : ∀ k, k < s.bc.toNat → (s.hl + BitVec.ofNat 16 k * d).toNat = src k)
    (hdst : ∀ k, k < s.bc.toNat → (s.de + BitVec.ofNat 16 k * d).toNat = dst k)
    (hahead : ∀ i j, i < j → j < s.bc.toNat → dst i ≠ src j ∧ dst i ≠ dst j) :
    let t := (State.transferred d)^[passes s.bc] s
    (∀ k, k < s.bc.toNat → t.mem.get (dst k) = s.mem.get (src k)) ∧
      ∀ a, (∀ k, k < s.bc.toNat → a ≠ dst k) → t.mem.get a = s.mem.get a := by
  rw [passes_eq, if_neg hbc]
  refine Memory.copy_of_steps (m := fun k => ((State.transferred d)^[k] s).mem) (fun k => ?_) (fun k hk => ?_) hahead
  · obtain ⟨-, -, hwf, -⟩ := transferKeeps_iterate d k hw
    exact hwf
  · rw [← hsrc k hk, ← hdst k hk, ← iterate_add (State.transferred_hl d), ← iterate_add (State.transferred_de d)]
    exact congrArg State.mem (Function.iterate_succ_apply' _ _ _)

/-- An address `k` above another, without wrap-around. -/
theorem add_ofNat_toNat {a : Word} {k : Nat} (h : a.toNat + k < 65536) :
    (a + BitVec.ofNat 16 k * 1).toNat = a.toNat + k := by
  rw [mul_one, BitVec.toNat_add, BitVec.toNat_ofNat]
  omega

/-- An address `k` below another, without wrap-around. -/
theorem sub_ofNat_toNat {a : Word} {k : Nat} (h : k ≤ a.toNat) :
    (a + BitVec.ofNat 16 k * -1).toNat = a.toNat - k := by
  have ha := a.isLt
  rw [mul_neg_one, ← sub_eq_add_neg, BitVec.toNat_sub, BitVec.toNat_ofNat]
  omega

/-- Settles O56: both forms are the iteration of one pass, upward or downward. -/
theorem repeatedTransfer : Obligations.RepeatedTransfer := by
  intro s hfull hw
  constructor
  · obtain ⟨hbc, hhl, hde, ha, hf, hframe⟩ := transfer_registers 1 hw
    rw [mul_one] at hhl hde
    refine ⟨_, congrArg toResult (blockLoop_transfer 1 hfull), hbc, hhl, hde, ha, hf, hframe,
      fun hne hsrc hdst hover => ?_⟩
    obtain ⟨hcopied, hother⟩ := transfer_copies (d := 1) hw hne (src := (s.hl.toNat + ·)) (dst := (s.de.toNat + ·))
      (fun k hk => add_ofNat_toNat (by omega)) (fun k hk => add_ofNat_toNat (by omega))
      fun i j hij hj => by omega
    exact ⟨hcopied, fun a ha => hother a fun k hk => by omega⟩
  · obtain ⟨hbc, hhl, hde, ha, hf, hframe⟩ := transfer_registers (-1) hw
    rw [mul_neg_one, ← sub_eq_add_neg] at hhl hde
    rw [sub_neg_eq_add] at hf
    refine ⟨_, congrArg toResult (blockLoop_transfer (-1) hfull), hbc, hhl, hde, ha, hf, hframe,
      fun hne hsrc hdst hover => ?_⟩
    obtain ⟨hcopied, hother⟩ := transfer_copies (d := -1) hw hne (src := (s.hl.toNat - ·)) (dst := (s.de.toNat - ·))
      (fun k hk => sub_ofNat_toNat (by omega)) (fun k hk => sub_ofNat_toNat (by omega))
      fun i j hij hj => by omega
    exact ⟨hcopied, fun a ha => hother a fun k hk => by omega⟩

end Sys2Proof.Machine
end
